-- ==== Sys2Proof/Word.lean ====
section
/-! DEFINITION. The words of the USART core: the 8-bit registers and data bus (00_scope R10), the 16-bit access word
(30_encoding R70), and the logic level of one wire (00_scope R11, R15). -/

namespace Sys2Proof

/-- `u8` of 00_scope R11: every register and the data bus are 8 bits wide (R10). -/
abbrev Byte := BitVec 8

/-- One access word, the 16-bit encoding of a stimulus (30_encoding R70). -/
abbrev Word := BitVec 16

/-- `bit` of 00_scope R11: `true` is 1, a high wire (R15), and `false` is 0. -/
abbrev Bit := Bool

end Sys2Proof
end

