-- ==== Sys2Proof/Syntax.lean ====
section
/-! DEFINITION. The stimuli of the core, one constructor for each row of spec/opcode_table.json, and the sequencer state that
tells the five control-port stimuli apart (10_state R22, 30_encoding R75). -/

namespace Sys2Proof

/-- The register-write sequencer `S.seq` (10_state R22). -/
inductive Seq where
  | expectMode
  | expectSync1
  | expectSync2
  | expectCommand
  deriving DecidableEq, Repr

/-- A stimulus. The operand is the data byte of a bus write or the level of a pin write (30_encoding R85). -/
inductive Instr where
  /-- DATA_W, a data-port write (42_transmitter R131). -/
  | dataW (b : Byte)
  /-- MODE_W, a control-port write in ExpectMode (40_sequencer R101). -/
  | modeW (b : Byte)
  /-- SYNC1_W, a control-port write in ExpectSync1 (40_sequencer R102). -/
  | sync1W (b : Byte)
  /-- SYNC2_W, a control-port write in ExpectSync2 (40_sequencer R103). -/
  | sync2W (b : Byte)
  /-- CMD_W, a control-port write in ExpectCommand with bit 6 clear (41_command_handshake R110). -/
  | cmdW (b : Byte)
  /-- CMD_IR, a control-port write in ExpectCommand with bit 6 set (41_command_handshake R111). -/
  | cmdIr (b : Byte)
  /-- MASK_W, a write of the variant's mask register (45_status_outputs R198). -/
  | maskW (b : Byte)
  /-- DATA_R, a data-port read (43_receiver R161). -/
  | dataR
  /-- STATUS_R, a status-port read (45_status_outputs R190). -/
  | statusR
  /-- MASK_R, a read of the variant's mask register (45_status_outputs R199). -/
  | maskR
  /-- TXRDY_R, the line-level read of tx-ready (42_transmitter R139). -/
  | txrdyR
  /-- PIN_RXD, the serial data input (43_receiver R150). -/
  | pinRxd (v : Bit)
  /-- PIN_CTS, the clear-to-send input (41_command_handshake R118). -/
  | pinCts (v : Bit)
  /-- PIN_DSR, the data-set-ready input (41_command_handshake R119). -/
  | pinDsr (v : Bit)
  /-- PIN_TXC, the transmit clock input (42_transmitter R132). -/
  | pinTxc (v : Bit)
  /-- PIN_RXC, the receive clock input (43_receiver R151). -/
  | pinRxc (v : Bit)
  /-- PIN_SYN, the external sync input (43_receiver R160). -/
  | pinSyn (v : Bit)
  /-- RESET, device reset (70_reset_and_hazards R230). -/
  | reset
  deriving DecidableEq, Repr

end Sys2Proof
end

