-- ==== Sys2Proof/WellFormed.lean ====
section
/-! DEFINITION. When a stimulus as syntax is one that the encoding can spell. Only the two command rows constrain their
byte: bit 6 (IR) is 0 in CMD_W and 1 in CMD_IR (41_command_handshake R110, R111). -/

namespace Sys2Proof

/-- The operand is one the stimulus's row of the opcode table admits. -/
def Instr.wf : Instr → Bool
  | .dataW _ => true
  | .modeW _ => true
  | .sync1W _ => true
  | .sync2W _ => true
  | .cmdW b => !b.getLsbD 6
  | .cmdIr b => b.getLsbD 6
  | .maskW _ => true
  | .dataR => true
  | .statusR => true
  | .maskR => true
  | .txrdyR => true
  | .pinRxd _ => true
  | .pinCts _ => true
  | .pinDsr _ => true
  | .pinTxc _ => true
  | .pinRxc _ => true
  | .pinSyn _ => true
  | .reset => true

/-- The row's condition on the sequencer (the "condition" column of opcode_table.json, 30_encoding R75): the control-port
stimuli belong to one sequencer state each, every other stimulus to all of them. -/
def Instr.admittedIn : Instr → Seq → Bool
  | .dataW _, _ => true
  | .modeW _, q => q == .expectMode
  | .sync1W _, q => q == .expectSync1
  | .sync2W _, q => q == .expectSync2
  | .cmdW _, q => q == .expectCommand
  | .cmdIr _, q => q == .expectCommand
  | .maskW _, _ => true
  | .dataR, _ => true
  | .statusR, _ => true
  | .maskR, _ => true
  | .txrdyR, _ => true
  | .pinRxd _, _ => true
  | .pinCts _, _ => true
  | .pinDsr _, _ => true
  | .pinTxc _, _ => true
  | .pinRxc _, _ => true
  | .pinSyn _, _ => true
  | .reset, _ => true

end Sys2Proof
end

