-- ==== Sys2Proof/Decode.lean ====
section
/-! DEFINITION. The access word (30_encoding R70 to R75): the decoder, total on every 16-bit word, and after it the encoder. A word
that fits no row of spec/opcode_table.json decodes to nothing; the step then refuses it as reserved (R74). The mask port's words
decode in every machine: in the base chip it is the meanings of MASK_W and MASK_R that refuse them, as R198 and R199 write it
(log entry 8). -/

namespace Sys2Proof

/-- `w[15:14]`, the class (R70). -/
def wordClass (w : Word) : BitVec 2 := w.extractLsb' 14 2
/-- `w[13:12]`, the port of a bus word (R71). -/
def wordPort (w : Word) : BitVec 2 := w.extractLsb' 12 2
/-- `w[11:8]`, zero in a bus word (R71). -/
def wordZero (w : Word) : BitVec 4 := w.extractLsb' 8 4
/-- `w[7:0]`, the data byte of a bus word (R71). -/
def wordData (w : Word) : Byte := w.extractLsb' 0 8
/-- `w[13:11]`, the pin of a pin word (R72). -/
def wordPin (w : Word) : BitVec 3 := w.extractLsb' 11 3
/-- `w[10:1]`, zero in a pin word (R72). -/
def wordPinZero (w : Word) : BitVec 10 := w.extractLsb' 1 10
/-- `w[0]`, the level of a pin word (R72). -/
def wordLevel (w : Word) : Bit := w.getLsbD 0
/-- `w[13:0]`, zero in the device reset word (R73). -/
def wordResetZero (w : Word) : BitVec 14 := w.extractLsb' 0 14

/-- Which stimulus a control-port write of `b` is (R75, 40_sequencer R100): by the sequencer and, for a command, by bit 6. -/
def decodeControl (seq : Seq) (b : Byte) : Instr :=
  match seq with
  | .expectMode => .modeW b
  | .expectSync1 => .sync1W b
  | .expectSync2 => .sync2W b
  | .expectCommand => if b.getLsbD 6 then .cmdIr b else .cmdW b

/-- Class 00 (R71): port 11 has no write (R74). -/
def decodeBusWrite (seq : Seq) (w : Word) : Option Instr :=
  if wordZero w ≠ 0#4 then none
  else if wordPort w = 0b00#2 then some (.dataW (wordData w))
  else if wordPort w = 0b01#2 then some (decodeControl seq (wordData w))
  else if wordPort w = 0b10#2 then some (.maskW (wordData w))
  else none

/-- Class 01 (R71): the data byte must be 0. -/
def decodeBusRead (w : Word) : Option Instr :=
  if wordZero w ≠ 0#4 ∨ wordData w ≠ 0#8 then none
  else if wordPort w = 0b00#2 then some .dataR
  else if wordPort w = 0b01#2 then some .statusR
  else if wordPort w = 0b10#2 then some .maskR
  else some .txrdyR

/-- Class 10 (R72): pins 110 and 111 are reserved. -/
def decodePinWrite (w : Word) : Option Instr :=
  if wordPinZero w ≠ 0#10 then none
  else if wordPin w = 0b000#3 then some (.pinRxd (wordLevel w))
  else if wordPin w = 0b001#3 then some (.pinCts (wordLevel w))
  else if wordPin w = 0b010#3 then some (.pinDsr (wordLevel w))
  else if wordPin w = 0b011#3 then some (.pinTxc (wordLevel w))
  else if wordPin w = 0b100#3 then some (.pinRxc (wordLevel w))
  else if wordPin w = 0b101#3 then some (.pinSyn (wordLevel w))
  else none

/-- The stimulus an access word spells while the sequencer is in `seq` (R70 to R75); `none` for a reserved word (R74). -/
def decode (seq : Seq) (w : Word) : Option Instr :=
  if wordClass w = 0b00#2 then decodeBusWrite seq w
  else if wordClass w = 0b01#2 then decodeBusRead w
  else if wordClass w = 0b10#2 then decodePinWrite w
  else if wordResetZero w = 0#14 then some .reset
  else none

/-! ### The encoder -/

/-- A class 00 word (R71). -/
def busWriteWord (port : BitVec 2) (b : Byte) : Word := 0b00#2 ++ port ++ 0#4 ++ b
/-- A class 01 word (R71). -/
def busReadWord (port : BitVec 2) : Word := 0b01#2 ++ port ++ 0#4 ++ 0#8
/-- A class 10 word (R72). -/
def pinWord (pin : BitVec 3) (v : Bit) : Word := 0b10#2 ++ pin ++ 0#10 ++ BitVec.ofBool v

/-- The access word of a stimulus (R71 to R73). -/
def encode : Instr → Word
  | .dataW b => busWriteWord 0b00#2 b
  | .modeW b => busWriteWord 0b01#2 b
  | .sync1W b => busWriteWord 0b01#2 b
  | .sync2W b => busWriteWord 0b01#2 b
  | .cmdW b => busWriteWord 0b01#2 b
  | .cmdIr b => busWriteWord 0b01#2 b
  | .maskW b => busWriteWord 0b10#2 b
  | .dataR => busReadWord 0b00#2
  | .statusR => busReadWord 0b01#2
  | .maskR => busReadWord 0b10#2
  | .txrdyR => busReadWord 0b11#2
  | .pinRxd v => pinWord 0b000#3 v
  | .pinCts v => pinWord 0b001#3 v
  | .pinDsr v => pinWord 0b010#3 v
  | .pinTxc v => pinWord 0b011#3 v
  | .pinRxc v => pinWord 0b100#3 v
  | .pinSyn v => pinWord 0b101#3 v
  | .reset => 0xC000#16

/-! ### The rows of spec/opcode_table.json -/

/-- The "mask" of the stimulus's row: the bits that the row fixes. -/
def rowMask : Instr → Word
  | .dataW _ | .modeW _ | .sync1W _ | .sync2W _ | .maskW _ => 0xFF00#16
  | .cmdW _ | .cmdIr _ => 0xFF40#16
  | .dataR | .statusR | .maskR | .txrdyR | .reset => 0xFFFF#16
  | .pinRxd _ | .pinCts _ | .pinDsr _ | .pinTxc _ | .pinRxc _ | .pinSyn _ => 0xFFFE#16

/-- The "match" of the stimulus's row: the value of those bits. -/
def rowMatch : Instr → Word
  | .dataW _ => 0x0000#16
  | .modeW _ => 0x1000#16
  | .sync1W _ => 0x1000#16
  | .sync2W _ => 0x1000#16
  | .cmdW _ => 0x1000#16
  | .cmdIr _ => 0x1040#16
  | .maskW _ => 0x2000#16
  | .dataR => 0x4000#16
  | .statusR => 0x5000#16
  | .maskR => 0x6000#16
  | .txrdyR => 0x7000#16
  | .pinRxd _ => 0x8000#16
  | .pinCts _ => 0x8800#16
  | .pinDsr _ => 0x9000#16
  | .pinTxc _ => 0x9800#16
  | .pinRxc _ => 0xA000#16
  | .pinSyn _ => 0xA800#16
  | .reset => 0xC000#16

/-! ### The host's question about one table row -/

/-- The access word whose bits the host numbers as the opcode table does: every row has exactly 16 bits, bits above `nbits` are 0. -/
def tableWord (nbits w : Nat) : Word := BitVec.ofNat 16 (w % 2 ^ nbits)

/-- What the decoder reads from such a word right after reset, when the sequencer is in ExpectMode: a control-port word is then
MODE_W (log entry 7). -/
def decodeTableWord (nbits w : Nat) : Option Instr :=
  decode .expectMode (tableWord nbits w)

end Sys2Proof
end

