-- ==== Sys2Proof/Config.lean ====
section
/-! DEFINITION. What one machine fixes: the parameters `P_*` of 00_scope R5 to R9. They are arguments of the model, so State
carries one value of `Params` that no stimulus writes (log entry 1). -/

namespace Sys2Proof

/-- The six input pin latches (10_state R34). -/
structure Pins where
  rxd : Bit
  cts : Bit
  dsr : Bit
  txc : Bit
  rxc : Bit
  syn : Bit
  deriving DecidableEq, Repr

/-- The implementation parameters (00_scope R5 to R9). -/
structure Params where
  /-- `P_HAS_MASK` (R5): the variant with the interrupt-mask register. -/
  hasMask : Bool
  /-- `P_STATUS_TXRDY_GATED` (R6): what status bit 0 reports. -/
  statusTxrdyGated : Bool
  /-- `P_RXRDY_CLEAR_ON_READ` (R7): whether a data read clears rx-ready. -/
  rxrdyClearOnRead : Bool
  /-- `P_MASK_RESET` (R8), OPEN: the mask register's value at device reset. -/
  maskReset : Byte
  /-- `P_INIT_RXD` … `P_INIT_SYN` (R9): the latches' power-on levels. -/
  init : Pins
  deriving DecidableEq, Repr

/-- The decided defaults of the input pins at power-on (00_scope R9). -/
def Config.initPins : Pins :=
  { rxd := true, cts := true, dsr := true, txc := false, rxc := false, syn := false }

/-- The parameters of State.reset: the spec's defaults (R6, R7, R9), and two values the spec leaves open: `hasMask` true (DESIGN
CHOICE, log entry 1) and `maskReset` 0x00 (DESIGN CHOICE, unsafe, log entry 2). No meaning reads this definition. -/
def Config.params : Params :=
  { hasMask := true, statusTxrdyGated := true, rxrdyClearOnRead := true, maskReset := 0x00#8,
    init := Config.initPins }

end Sys2Proof
end

