-- ==== Sys2Proof/Machine/State.lean ====
section
/-! DEFINITION. The state of the core as plain data: every field 10_state names (R22 to R37), the parameters, and the model's own
three fields for what goes in and comes out of a step (00_scope R14). The core has no memory and no program counter (R21, R50). -/

namespace Sys2Proof.Machine

/-- The output pins, in the emission order of 45_status_outputs R197. -/
inductive OutPin where
  | dtr
  | rts
  | txd
  | rxrdy
  | txrdy
  | txempty
  | syndet
  deriving DecidableEq, Repr

/-- The seven pins in the order of R197: `ALL_PINS` of R196. -/
def OutPin.all : List OutPin := [.dtr, .rts, .txd, .rxrdy, .txrdy, .txempty, .syndet]

/-- One level for each output pin: `S.out` (10_state R35). -/
structure OutLevels where
  dtr : Bit
  rts : Bit
  txd : Bit
  rxrdy : Bit
  txrdy : Bit
  txempty : Bit
  syndet : Bit
  deriving DecidableEq, Repr

/-- `S.out[p]`. -/
def OutLevels.get (o : OutLevels) : OutPin → Bit
  | .dtr => o.dtr
  | .rts => o.rts
  | .txd => o.txd
  | .rxrdy => o.rxrdy
  | .txrdy => o.txrdy
  | .txempty => o.txempty
  | .syndet => o.syndet

/-- One emission, `(pin, level)` (00_scope R13, R14). -/
abbrev Emission := OutPin × Bit

/-- The transmitter shift state (10_state R27): `S.tx_busy`, `S.tx_frame`, `S.tx_pos`, `S.tx_line`. -/
structure TxShift where
  busy : Bit
  frame : List Bit
  pos : Nat
  line : Bit
  deriving DecidableEq, Repr

/-- The idle transmitter: no frame, the line at mark (R133). -/
def TxShift.idle : TxShift := { busy := false, frame := [], pos := 0, line := true }

/-- `S.rx_state` (10_state R30). -/
inductive RxState where
  | idle
  | start
  | frame
  deriving DecidableEq, Repr

/-- The receiver assembly state (10_state R30): `S.rx_state`, `S.rx_wait`, `S.rx_bits`. -/
structure RxAssembly where
  state : RxState
  wait : Nat
  bits : List Bit
  deriving DecidableEq, Repr

/-- The receiver waiting for a start bit, with nothing collected. -/
def RxAssembly.idle : RxAssembly := { state := .idle, wait := 0, bits := [] }

/-- The state record `S` of 10_state. -/
structure State where
  /-- `S.seq` (R22). -/
  seq : Seq
  /-- `S.mode` (R23). -/
  mode : Byte
  /-- `S.cmd` (R24). -/
  cmd : Byte
  /-- `S.sync1` (R25). -/
  sync1 : Byte
  /-- `S.sync2` (R25). -/
  sync2 : Byte
  /-- `S.thr` (R26). -/
  thr : Byte
  /-- `S.thre` (R26): the holding register is empty. -/
  thre : Bit
  /-- `S.tx_busy`, `S.tx_frame`, `S.tx_pos`, `S.tx_line` (R27). -/
  tx : TxShift
  /-- `S.tx_div` (R28). -/
  txDiv : Nat
  /-- `S.rdr` (R29). -/
  rdr : Byte
  /-- `S.rxrdy` (R29). -/
  rxrdy : Bit
  /-- `S.rx_state`, `S.rx_wait`, `S.rx_bits` (R30). -/
  rx : RxAssembly
  /-- `S.hunt` (R31). -/
  hunt : Bit
  /-- `S.hunt_hist` (R31). -/
  huntHist : List Bit
  /-- `S.syndet` (R32). -/
  syndet : Bit
  /-- `S.pe` (R33). -/
  pe : Bit
  /-- `S.oe` (R33). -/
  oe : Bit
  /-- `S.fe` (R33). -/
  fe : Bit
  /-- `S.rxd`, `S.cts`, `S.dsr`, `S.txc`, `S.rxc`, `S.syn` (R34). -/
  pins : Pins
  /-- `S.out` (R35). -/
  out : OutLevels
  /-- `S.mask` (R36): exists when `P_HAS_MASK`; in the base chip nothing reads it. -/
  mask : Byte
  /-- `S.was_reset` (R37). -/
  wasReset : Bit
  /-- The parameters (00_scope R5 to R9); no stimulus writes them (log entry 1). -/
  params : Params
  /-- MODEL'S OWN: the access words still to be delivered, oldest first (log entry 3). -/
  pending : List Word
  /-- MODEL'S OWN: the `events` of R14's step, for the last stimulus (log entry 4). -/
  events : List Emission
  /-- MODEL'S OWN: the `value` of R14's step, for the last stimulus, when it was a read (log entry 4). -/
  value : Option Byte
  deriving DecidableEq, Repr

/-- Why a step can stop with a fault. -/
inductive Fault where
  /-- Raised by every bus access before the first device reset (70_reset_and_hazards R232, 60_exceptions R211). Safe: the hardware
  gives some value there and the model gives none. -/
  | unreset
  deriving DecidableEq, Repr

/-- Why a step can be refused. -/
inductive Refusal where
  /-- An instruction that has no meaning yet, answered by an arm of exec only. Safe. No arm answers so now. -/
  | notModelled (mnemonic : String)
  /-- Raised by the step on an access word that fits no row of the opcode table, and by MASK_W and MASK_R in the base chip
  (30_encoding R74, 45_status_outputs R200). Safe: these words name no stimulus of the hardware. -/
  | reservedEncoding
  deriving DecidableEq, Repr

/-- The output levels after any reset (10_state R41, last paragraph). -/
def OutLevels.afterReset : OutLevels :=
  { dtr := true, rts := true, txd := true, rxrdy := false, txrdy := false, txempty := true, syndet := false }

/-- The seven emissions of RESET and CMD_IR (70_reset_and_hazards R230, the example). -/
def resetEmissions : List Emission :=
  [(.dtr, true), (.rts, true), (.txd, true), (.rxrdy, false), (.txrdy, false), (.txempty, true), (.syndet, false)]

/-- The state after a device reset of a machine with parameters `p`, whose latches stood at `pins`, with `words` still to come:
the table of 10_state R41. -/
def State.afterReset (p : Params) (pins : Pins) (words : List Word) : State :=
  { seq := .expectMode, mode := 0x00#8, cmd := 0x00#8, sync1 := 0x00#8, sync2 := 0x00#8
    thr := 0x00#8, thre := true, tx := .idle, txDiv := 0
    rdr := 0x00#8, rxrdy := false, rx := .idle
    hunt := false, huntHist := [], syndet := false
    pe := false, oe := false, fe := false
    pins := pins, out := .afterReset
    mask := p.maskReset, wasReset := true
    params := p, pending := words, events := resetEmissions, value := none }

/-- The machine right after the device reset that ends power-on (R41, R9), with no stimulus waiting (log entries 1 to 5). -/
def State.reset : State := State.afterReset Config.params Config.params.init []

end Sys2Proof.Machine
end

