-- ==== Sys2Proof/Machine/Operands.lean ====
section
/-! DEFINITION. The fields of the two configuration bytes: the mode byte (30_encoding R76 to R79) and the command byte (R80).
A stimulus's own operand is used as it is (R85). -/

namespace Sys2Proof.Machine

/-! ### The mode byte (R78) -/

/-- `m[1:0]`, the baud-rate factor field B. -/
def modeFactorField (m : Byte) : BitVec 2 := m.extractLsb' 0 2
/-- `m[3:2]`, the character length field L. -/
def modeLengthField (m : Byte) : BitVec 2 := m.extractLsb' 2 2
/-- `m[7:6]`, the stop field S of an asynchronous mode byte. -/
def modeStopField (m : Byte) : BitVec 2 := m.extractLsb' 6 2

/-- `sync_mode(m)`. -/
def syncMode (m : Byte) : Bool := modeFactorField m == 0b00#2

/-- `factor(m)`, the clock edges of one bit time: sync mode forces ×1. -/
def factor (m : Byte) : Nat :=
  if modeFactorField m = 0b10#2 then 16
  else if modeFactorField m = 0b11#2 then 64
  else 1

/-- `nbits(m)`, the character length, 5 to 8. -/
def nbits (m : Byte) : Nat := 5 + (modeLengthField m).toNat

/-- `pen(m)`, parity enable. -/
def pen (m : Byte) : Bool := m.getLsbD 4

/-- `even(m)`, even parity; read only under PEN. -/
def even (m : Byte) : Bool := m.getLsbD 5

/-- `pen(m)` as a number of frame bits, `p` of 43_receiver. -/
def parityBits (m : Byte) : Nat := (pen m).toNat

/-- `stops(m)`, asynchronous mode only: the reserved field 00 is one stop bit, and one and a half is sent as two (R79). -/
def stops (m : Byte) : Nat :=
  if modeStopField m = 0b10#2 ∨ modeStopField m = 0b11#2 then 2 else 1

/-- `esd(m)`, external sync detect. -/
def esd (m : Byte) : Bool := syncMode m && m.getLsbD 6

/-- `nsync(m)`, the number of sync characters: 0 exactly in asynchronous mode. -/
def nsync (m : Byte) : Nat :=
  if syncMode m then (if m.getLsbD 7 then 1 else 2) else 0

/-! ### The command byte (R80) -/

/-- Bit 0, transmit enable. -/
def cmdTxEn (c : Byte) : Bit := c.getLsbD 0
/-- Bit 1, data terminal ready. -/
def cmdDtr (c : Byte) : Bit := c.getLsbD 1
/-- Bit 2, receive enable. -/
def cmdRxE (c : Byte) : Bit := c.getLsbD 2
/-- Bit 3, send break. -/
def cmdSbrk (c : Byte) : Bit := c.getLsbD 3
/-- Bit 4, error reset. -/
def cmdEr (c : Byte) : Bit := c.getLsbD 4
/-- Bit 5, request to send. -/
def cmdRts (c : Byte) : Bit := c.getLsbD 5
/-- Bit 7, enter hunt. -/
def cmdEh (c : Byte) : Bit := c.getLsbD 7

end Sys2Proof.Machine
end

