-- ==== Sys2Proof/Machine/Codec.lean ====
section
/-! DEFINITION. The parity and framing codec (44_codec R180 to R185), with the bit lists of 00_scope R12. Pure functions: element
0 of a list is the first bit on the wire, and a character goes out least significant bit first (20_memory R54). -/

namespace Sys2Proof.Machine

/-- `bits_of(c, n)`, also `char_bits(c, n)` (R12, R182). -/
def bitsOf (c : Byte) (n : Nat) : List Bit := (List.range n).map fun k => c.getLsbD k

/-- `value_of(L)` (R12). -/
def valueOf : List Bit → Nat
  | [] => 0
  | b :: rest => b.toNat + 2 * valueOf rest

/-- `last_K(L)` (R12): the last `k` elements, or all of a shorter list. -/
def lastBits (k : Nat) (l : List Bit) : List Bit := l.drop (l.length - k)

/-- `popcount(c[n-1:0])` (R13, R180). -/
def popcountLow (c : Byte) (n : Nat) : Nat := (bitsOf c n).count true

/-- `parity_bit(c, n, even)` (R180). -/
def parityBit (c : Byte) (n : Nat) (ev : Bool) : Bit := decide (popcountLow c n % 2 = 1) ^^ !ev

/-- A character under mode `m` as its bits on the wire: data, then the parity bit when PEN = 1 (R181, R182, 43_receiver R158). -/
def charBits (c : Byte) (m : Byte) : List Bit :=
  bitsOf c (nbits m) ++ (if pen m then [parityBit c (nbits m) (even m)] else [])

/-- `tx_frame_of(c, m)` (R183): no start and no stop bits in sync mode. -/
def txFrameOf (c : Byte) (m : Byte) : List Bit :=
  if syncMode m then charBits c m
  else [false] ++ charBits c m ++ List.replicate (stops m) true

/-- `rx_data(L)` (R185), zero-extended to a byte (30_encoding R83). -/
def rxData (m : Byte) (l : List Bit) : Byte := BitVec.ofNat 8 (valueOf (l.take (nbits m)))

/-- `rx_par_ok(L)` (R185, R181). The list always holds the parity bit when this is asked under PEN. -/
def rxParOk (m : Byte) (l : List Bit) : Bool :=
  !(pen m) || (l.getD (nbits m) false == parityBit (rxData m l) (nbits m) (even m))

/-- `rx_frame_ok(L)` (R185): the first stop bit is at mark; sync mode has none. -/
def rxFrameOk (m : Byte) (l : List Bit) : Bool :=
  syncMode m || l.getD (nbits m + parityBits m) false

end Sys2Proof.Machine
end

