-- ==== Sys2Proof/Machine/Flags.lean ====
section
/-! DEFINITION. The computed flags: transmit enable (42_transmitter R130), the seven output levels (45_status_outputs R195) and
the status byte (R190, R191). Each is a function of the state; none is stored. -/

namespace Sys2Proof.Machine

/-- `tx_enabled(S)` (R130): TxEN is set and CTS is asserted, at level 0. -/
def txEnabled (s : State) : Bool := cmdTxEn s.cmd && !s.pins.cts

/-- `dtr_level(S)` (41_command_handshake R116), active low. -/
def dtrLevel (s : State) : Bit := !(cmdDtr s.cmd)
/-- `rts_level(S)` (R116), active low. -/
def rtsLevel (s : State) : Bit := !(cmdRts s.cmd)
/-- `txd_level(S)` (42_transmitter R136): send break forces 0. -/
def txdLevel (s : State) : Bit := if cmdSbrk s.cmd then false else s.tx.line
/-- `rxrdy_level(S)` (45_status_outputs R193). -/
def rxrdyLevel (s : State) : Bit := s.rxrdy
/-- `txrdy_level(S)` (42_transmitter R137). -/
def txrdyLevel (s : State) : Bit := s.thre && txEnabled s
/-- `txempty_level(S)` (R138). -/
def txemptyLevel (s : State) : Bit := s.thre && !s.tx.busy
/-- `syndet_level(S)` (45_status_outputs R194). -/
def syndetLevel (s : State) : Bit := s.syndet

/-- The level functions of the seven pins (R195). -/
def levels (s : State) : OutLevels :=
  { dtr := dtrLevel s, rts := rtsLevel s, txd := txdLevel s, rxrdy := rxrdyLevel s,
    txrdy := txrdyLevel s, txempty := txemptyLevel s, syndet := syndetLevel s }

/-- A flag as a byte, at bit `k`. -/
def flagAt (b : Bit) (k : Nat) : Byte := (BitVec.ofBool b).setWidth 8 <<< k

/-- Status bit 0 (R191). -/
def statusTxrdy (s : State) : Bit := if s.params.statusTxrdyGated then txrdyLevel s else s.thre

/-- Status bit 6 (R190): there is no break detect in async mode. -/
def statusSyndet (s : State) : Bit := if syncMode s.mode then s.syndet else false

/-- The status byte (30_encoding R81, 45_status_outputs R190). -/
def statusByte (s : State) : Byte :=
  flagAt (statusTxrdy s) 0 ||| flagAt s.rxrdy 1 ||| flagAt (txemptyLevel s) 2 ||| flagAt s.pe 3
    ||| flagAt s.oe 4 ||| flagAt s.fe 5 ||| flagAt (statusSyndet s) 6 ||| flagAt (!s.pins.dsr) 7

end Sys2Proof.Machine
end

