-- ==== Sys2Proof/Machine/Ops.lean ====
section
/-! DEFINITION. The operations that several meanings share: emitting the outputs (45_status_outputs R196), the core reset
(70_reset_and_hazards R231), the rule before the first reset (R232), and taking the next access word. The core takes no trap
(60_exceptions R210, R218), so there is no exception entry here and no return from one. -/

namespace Sys2Proof.Machine

/-- What a step of this machine answers. -/
abbrev Answer := Host.Outcome State Fault Refusal

/-- The emissions of `update_outputs(F)` (R196, R197): a pin is emitted when forced or when its level differs from `S.out`. -/
def emissions (forced : List OutPin) (s : State) : List Emission :=
  (OutPin.all.filter fun p => forced.contains p || (levels s).get p != s.out.get p).map
    fun p => (p, (levels s).get p)

/-- `update_outputs(F)` (R196). A pin that is not emitted already has its level in `S.out`, so `S.out` is then every pin's
level. The stimulus's value is absent; a read sets it afterwards. -/
def updateOutputs (forced : List OutPin) (s : State) : State :=
  { s with events := emissions forced s, out := levels s, value := none }

/-- A stimulus that emits nothing and returns nothing. -/
def quiet (s : State) : State := { s with events := [], value := none }

/-- `return v` (R13): the byte a read puts on the data bus. -/
def returning (b : Byte) (s : State) : State := { s with value := some b }

/-- `core_reset()` (70_reset_and_hazards R231). -/
def coreReset (s : State) : State :=
  { s with
    seq := .expectMode, mode := 0x00#8, cmd := 0x00#8, sync1 := 0x00#8, sync2 := 0x00#8
    thr := 0x00#8, thre := true, txDiv := 0, tx := .idle
    rdr := 0x00#8, rxrdy := false, rx := .idle
    hunt := false, huntHist := [], syndet := false
    pe := false, oe := false, fe := false }

/-- A bus access (R232): it faults before the first device reset. -/
def busAccess (s : State) (after : State) : Answer :=
  if s.wasReset then .next after else .fault .unreset

/-- A pin write (R232): before the first device reset it only updates its latch, which `latched` holds. -/
def pinWrite (latched : State) (after : State) : Answer :=
  if latched.wasReset then .next after else .next (quiet latched)

/-- The mask port (45_status_outputs R198 to R200): the base chip has none, in any state. -/
def maskPort (s : State) (after : State) : Answer :=
  if s.params.hasMask then busAccess s after else .refused .reservedEncoding

/-- The next access word, taken off the words still to come (20_memory R58). -/
def fetch (s : State) : Option (Word × State) :=
  match s.pending with
  | [] => none
  | w :: rest => some (w, { s with pending := rest })

end Sys2Proof.Machine
end

