-- ==== Sys2Proof/Machine/Command.lean ====
section
/-! DEFINITION. Command bytes and the handshake inputs (41_command_handshake): CMD_W, CMD_IR, PIN_CTS and PIN_DSR. -/

namespace Sys2Proof.Machine

/-- RxE = 0 resets the receiver assembly state (R114). -/
def applyRxDisable (b : Byte) (s : State) : State :=
  if cmdRxE b then s else { s with rx := .idle, huntHist := [] }

/-- ER clears the three sticky errors and nothing else (R112). -/
def applyErrorReset (b : Byte) (s : State) : State :=
  if cmdEr b then { s with pe := false, oe := false, fe := false } else s

/-- EH enters hunt, in sync mode only (R113). -/
def applyEnterHunt (b : Byte) (s : State) : State :=
  if cmdEh b = true ∧ syncMode s.mode = true then
    { s with hunt := true, syndet := false, huntHist := [], rx := { s.rx with bits := [] } }
  else s

/-- What a command byte does before the outputs are updated, in the order of R110. -/
def applyCommand (b : Byte) (s : State) : State :=
  applyEnterHunt b (applyErrorReset b (applyRxDisable b { s with cmd := b }))

/-- CMD_W (R110): DTR and RTS are emitted even when unchanged. -/
def execCmdW (b : Byte) (s : State) : Answer :=
  busAccess s (updateOutputs [.dtr, .rts] (applyCommand b s))

/-- CMD_IR (R111): the byte's other bits have no effect. -/
def execCmdIr (_b : Byte) (s : State) : Answer :=
  busAccess s (updateOutputs OutPin.all (coreReset s))

/-- PIN_CTS (R118). -/
def execPinCts (v : Bit) (s : State) : Answer :=
  let latched := { s with pins := { s.pins with cts := v } }
  pinWrite latched (updateOutputs [] latched)

/-- PIN_DSR (R119). -/
def execPinDsr (v : Bit) (s : State) : Answer :=
  let latched := { s with pins := { s.pins with dsr := v } }
  pinWrite latched (updateOutputs [] latched)

end Sys2Proof.Machine
end

