-- ==== Sys2Proof/Machine/DeviceReset.lean ====
section
/-! DEFINITION. Device reset (70_reset_and_hazards R230). -/

namespace Sys2Proof.Machine

/-- RESET (R230): valid in every state, the state before the first reset among them. The pin latches stay. -/
def execReset (s : State) : Answer :=
  .next (updateOutputs OutPin.all
    { coreReset s with
      mask := if s.params.hasMask then s.params.maskReset else s.mask
      wasReset := true })

end Sys2Proof.Machine
end

