-- ==== Sys2Proof/Machine/Receiver.lean ====
section
/-! DEFINITION. The receiver (43_receiver): PIN_RXD, PIN_RXC with the asynchronous and the synchronous sample, PIN_SYN and
DATA_R. -/

namespace Sys2Proof.Machine

/-- `rx_complete(data, par_ok, fe)` (R156): the flags are sticky, and an unread character is kept. -/
def rxComplete (data : Byte) (parOk fe : Bool) (s : State) : State :=
  { s with
    fe := s.fe || fe
    pe := s.pe || !parOk
    oe := s.oe || s.rxrdy
    rdr := if s.rxrdy then s.rdr else data
    rxrdy := true }

/-! ### Asynchronous reception -/

/-- `rx_async_complete()` (R155), on the collected bits `l`. -/
def rxAsyncComplete (l : List Bit) (s : State) : State :=
  { rxComplete (rxData s.mode l) (rxParOk s.mode l) (!(rxFrameOk s.mode l)) s with rx := .idle }

/-- `rx_frame_bit(v)` (R154): only the first stop bit is sampled. -/
def rxFrameBit (v : Bit) (s : State) : State :=
  if (s.rx.bits ++ [v]).length = nbits s.mode + parityBits s.mode + 1 then
    rxAsyncComplete (s.rx.bits ++ [v]) s
  else { s with rx := { s.rx with bits := s.rx.bits ++ [v], wait := factor s.mode } }

/-- `rx_start_centre(v)` (R153): a line back at mark was a false start. -/
def rxStartCentre (v : Bit) (s : State) : State :=
  if v then { s with rx := .idle }
  else { s with rx := { state := .frame, wait := factor s.mode, bits := [] } }

/-- `rx_async_sample(v)` (R152). At ×1 the start bit's own sample is its centre. -/
def rxAsyncSample (v : Bit) (s : State) : State :=
  match s.rx.state with
  | .idle =>
    if v then s
    else if factor s.mode / 2 = 0 then rxStartCentre v s
    else { s with rx := { s.rx with state := .start, wait := factor s.mode / 2 } }
  | .start =>
    if s.rx.wait - 1 = 0 then rxStartCentre v s
    else { s with rx := { s.rx with wait := s.rx.wait - 1 } }
  | .frame =>
    if s.rx.wait - 1 = 0 then rxFrameBit v s
    else { s with rx := { s.rx with wait := s.rx.wait - 1 } }

/-! ### Synchronous reception -/

/-- `sync_pattern(S)` (R158). The spec defines it in sync mode only; it is empty in async mode, where nothing hunts (log entry
11). -/
def syncPattern (s : State) : List Bit :=
  if nsync s.mode = 1 then charBits s.sync1 s.mode
  else if nsync s.mode = 2 then charBits s.sync1 s.mode ++ charBits s.sync2 s.mode
  else []

/-- Sync is found: hunt ends and the next sample is bit 0 of a character (R157, R160). -/
def declareSync (s : State) : State :=
  { s with hunt := false, syndet := true, rx := { s.rx with bits := [] }, huntHist := [] }

/-- The trailing window of hunt after one more bit (R157). -/
def huntWindow (v : Bit) (s : State) : List Bit := lastBits (syncPattern s).length (s.huntHist ++ [v])

/-- One sample while hunting (R157): under ESD the bit is ignored. -/
def rxHuntSample (v : Bit) (s : State) : State :=
  if esd s.mode then s
  else if huntWindow v s = syncPattern s then declareSync s
  else { s with huntHist := huntWindow v s }

/-- `rx_sync_complete()` (R159), on the collected bits `l`: no stop bit, so no framing error. -/
def rxSyncComplete (l : List Bit) (s : State) : State :=
  let done := rxComplete (rxData s.mode l) (rxParOk s.mode l) false s
  { done with rx := { done.rx with bits := [] } }

/-- `rx_sync_sample(v)` (R157). -/
def rxSyncSample (v : Bit) (s : State) : State :=
  if s.hunt then rxHuntSample v s
  else if (s.rx.bits ++ [v]).length = nbits s.mode + parityBits s.mode then
    rxSyncComplete (s.rx.bits ++ [v]) s
  else { s with rx := { s.rx with bits := s.rx.bits ++ [v] } }

/-- One sample of the enabled receiver (R151). -/
def rxSample (v : Bit) (s : State) : State :=
  if syncMode s.mode then rxSyncSample v s else rxAsyncSample v s

/-! ### The stimuli -/

/-- PIN_RXD (R150): the level is only latched. -/
def execPinRxd (v : Bit) (s : State) : Answer :=
  let latched := { s with pins := { s.pins with rxd := v } }
  pinWrite latched (updateOutputs [] latched)

/-- PIN_RXC (R151): a rising edge is a sample while RxE is set. -/
def execPinRxc (v : Bit) (s : State) : Answer :=
  let latched := { s with pins := { s.pins with rxc := v } }
  pinWrite latched
    (updateOutputs []
      (if s.pins.rxc = false ∧ v = true ∧ cmdRxE s.cmd = true then rxSample s.pins.rxd latched else latched))

/-- PIN_SYN (R160): a rising edge declares sync in external-sync hunt with RxE set. -/
def execPinSyn (v : Bit) (s : State) : Answer :=
  let latched := { s with pins := { s.pins with syn := v } }
  pinWrite latched
    (updateOutputs []
      (if s.pins.syn = false ∧ v = true ∧ esd s.mode = true ∧ s.hunt = true ∧ cmdRxE s.cmd = true then
        declareSync latched
      else latched))

/-- DATA_R (R161): the last assembled character, stale or not. -/
def execDataR (s : State) : Answer :=
  busAccess s
    (returning s.rdr (updateOutputs [] (if s.params.rxrdyClearOnRead then { s with rxrdy := false } else s)))

end Sys2Proof.Machine
end

