-- ==== Sys2Proof/Machine/Sequencer.lean ====
section
/-! DEFINITION. The register-write sequencer (40_sequencer): MODE_W, SYNC1_W and SYNC2_W. That a control-port write reaches the
one its state selects is decoding (R75, R100); no meaning checks it again (R104). -/

namespace Sys2Proof.Machine

/-- MODE_W (R101): both directions' shift state is reset; THR and the sticky flags stay. -/
def execModeW (b : Byte) (s : State) : Answer :=
  busAccess s (updateOutputs []
    { s with
      mode := b
      txDiv := 0, tx := .idle
      rx := .idle, huntHist := []
      syndet := false
      hunt := syncMode b
      seq := if syncMode b then .expectSync1 else .expectCommand })

/-- SYNC1_W (R102). -/
def execSync1W (b : Byte) (s : State) : Answer :=
  busAccess s (updateOutputs []
    { s with
      sync1 := b
      seq := if nsync s.mode = 2 then .expectSync2 else .expectCommand })

/-- SYNC2_W (R103). -/
def execSync2W (b : Byte) (s : State) : Answer :=
  busAccess s (updateOutputs [] { s with sync2 := b, seq := .expectCommand })

end Sys2Proof.Machine
end

