-- ==== Sys2Proof/Machine/Status.lean ====
section
/-! DEFINITION. The status read and the variant's mask register (45_status_outputs): STATUS_R, MASK_W and MASK_R. The mask is
storage only (60_exceptions R216). -/

namespace Sys2Proof.Machine

/-- STATUS_R (R190): no state changes and nothing is emitted. -/
def execStatusR (s : State) : Answer :=
  busAccess s (returning (statusByte s) (quiet s))

/-- MASK_W (R198). -/
def execMaskW (b : Byte) (s : State) : Answer :=
  maskPort s (updateOutputs [] { s with mask := b })

/-- MASK_R (R199). -/
def execMaskR (s : State) : Answer :=
  maskPort s (returning s.mask (quiet s))

end Sys2Proof.Machine
end

