-- ==== Sys2Proof/Machine/Transmitter.lean ====
section
/-! DEFINITION. The transmitter (42_transmitter): DATA_W, PIN_TXC with the bit tick, and TXRDY_R. -/

namespace Sys2Proof.Machine

/-- The frame built from THR enters the shift register and its first bit goes to the line (R133, the Loading branch). -/
def txLoad (s : State) : State :=
  { s with
    tx := { busy := true, frame := txFrameOf s.thr s.mode, pos := 1, line := (txFrameOf s.thr s.mode).headD true }
    thre := true }

/-- `tx_bit_tick()` (R133). Its three branches are Shifting, Loading and Idle. -/
def txBitTick (s : State) : State :=
  if s.tx.busy = true ∧ s.tx.pos < s.tx.frame.length then
    { s with tx := { s.tx with line := s.tx.frame.getD s.tx.pos true, pos := s.tx.pos + 1 } }
  else if s.thre = false ∧ txEnabled s = true then txLoad s
  else { s with tx := .idle }

/-- A counted falling edge of TxC (R132): every `factor`-th is a bit tick. -/
def txcFalling (s : State) : State :=
  if s.txDiv + 1 ≥ factor s.mode then txBitTick { s with txDiv := 0 } else { s with txDiv := s.txDiv + 1 }

/-- DATA_W (R131): accepted only while THR is empty, whatever TxEN and CTS say. -/
def execDataW (b : Byte) (s : State) : Answer :=
  busAccess s (updateOutputs [] (if s.thre then { s with thr := b, thre := false } else s))

/-- PIN_TXC (R132). -/
def execPinTxc (v : Bit) (s : State) : Answer :=
  let latched := { s with pins := { s.pins with txc := v } }
  pinWrite latched
    (updateOutputs [] (if s.pins.txc = true ∧ v = false then txcFalling latched else latched))

/-- TXRDY_R (R139): no state changes and nothing is emitted. -/
def execTxrdyR (s : State) : Answer :=
  busAccess s (returning (flagAt (txrdyLevel s) 0) (quiet s))

end Sys2Proof.Machine
end

