-- ==== Sys2Proof/Machine/Dispatch.lean ====
section
/-! DEFINITION. One arm per stimulus. -/

namespace Sys2Proof.Machine

def exec (i : Instr) (s : State) : Host.Outcome State Fault Refusal :=
  match i with
  | .dataW b => Sys2Proof.Machine.execDataW b s
  | .modeW b => Sys2Proof.Machine.execModeW b s
  | .sync1W b => Sys2Proof.Machine.execSync1W b s
  | .sync2W b => Sys2Proof.Machine.execSync2W b s
  | .cmdW b => Sys2Proof.Machine.execCmdW b s
  | .cmdIr b => Sys2Proof.Machine.execCmdIr b s
  | .maskW b => Sys2Proof.Machine.execMaskW b s
  | .dataR => Sys2Proof.Machine.execDataR s
  | .statusR => Sys2Proof.Machine.execStatusR s
  | .maskR => Sys2Proof.Machine.execMaskR s
  | .txrdyR => Sys2Proof.Machine.execTxrdyR s
  | .pinRxd v => Sys2Proof.Machine.execPinRxd v s
  | .pinCts v => Sys2Proof.Machine.execPinCts v s
  | .pinDsr v => Sys2Proof.Machine.execPinDsr v s
  | .pinTxc v => Sys2Proof.Machine.execPinTxc v s
  | .pinRxc v => Sys2Proof.Machine.execPinRxc v s
  | .pinSyn v => Sys2Proof.Machine.execPinSyn v s
  | .reset => Sys2Proof.Machine.execReset s

end Sys2Proof.Machine
end

