-- ==== Sys2Proof/Machine/Step.lean ====
section
/-! DEFINITION. One step: the next access word is taken, decoded under the sequencer state (30_encoding R75) and run to completion
(00_scope R14). A word that fits no row is refused (R74). With no word to come the core holds its state (60_exceptions R222), and
nothing is emitted. -/

namespace Sys2Proof.Machine

def step (s : State) : Host.Outcome State Fault Refusal :=
  match fetch s with
  | none => .next (quiet s)
  | some (w, taken) =>
    match decode s.seq w with
    | none => .refused .reservedEncoding
    | some i => exec i taken

/-- The state with one more access word to come, ahead of the others; its bits are numbered as the opcode table numbers them. -/
def State.withFetchWord (s : State) (nbits w : Nat) : State :=
  { s with pending := tableWord nbits w :: s.pending }

end Sys2Proof.Machine
end

