-- ==== Sys2Proof/Safety.lean ====
section
/-! DEFINITION. The terms in which claims about the core are stated: kinds of stimuli, what counts as a reserved word, the reset
values, the invariant (10_state R39 and what its proof needs), and runs of several stimuli. No meaning uses this file. -/

namespace Sys2Proof

/-! ### Kinds of stimuli -/

/-- A bus access (70_reset_and_hazards R232). -/
def Instr.isBusAccess : Instr → Bool
  | .dataW _ | .modeW _ | .sync1W _ | .sync2W _ | .cmdW _ | .cmdIr _ | .maskW _ => true
  | .dataR | .statusR | .maskR | .txrdyR => true
  | .pinRxd _ | .pinCts _ | .pinDsr _ | .pinTxc _ | .pinRxc _ | .pinSyn _ => false
  | .reset => false

/-- An access of the variant's mask port (45_status_outputs R200). -/
def Instr.isMaskPort : Instr → Bool
  | .maskW _ | .maskR => true
  | .dataW _ | .modeW _ | .sync1W _ | .sync2W _ | .cmdW _ | .cmdIr _ | .dataR | .statusR | .txrdyR => false
  | .pinRxd _ | .pinCts _ | .pinDsr _ | .pinTxc _ | .pinRxc _ | .pinSyn _ => false
  | .reset => false

/-- A pin write (30_encoding R72). -/
def Instr.isPinWrite : Instr → Bool
  | .pinRxd _ | .pinCts _ | .pinDsr _ | .pinTxc _ | .pinRxc _ | .pinSyn _ => true
  | .dataW _ | .modeW _ | .sync1W _ | .sync2W _ | .cmdW _ | .cmdIr _ | .maskW _ => false
  | .dataR | .statusR | .maskR | .txrdyR => false
  | .reset => false

/-- A read whose rule changes no state and emits nothing (20_memory R55): every read but DATA_R. -/
def Instr.isPureRead : Instr → Bool
  | .statusR | .maskR | .txrdyR => true
  | .dataW _ | .modeW _ | .sync1W _ | .sync2W _ | .cmdW _ | .cmdIr _ | .maskW _ | .dataR => false
  | .pinRxd _ | .pinCts _ | .pinDsr _ | .pinTxc _ | .pinRxc _ | .pinSyn _ => false
  | .reset => false

/-- A stimulus that writes `S.cmd` (41_command_handshake R116): CMD_W, CMD_IR and RESET. -/
def Instr.writesCommand : Instr → Bool
  | .cmdW _ | .cmdIr _ | .reset => true
  | .dataW _ | .modeW _ | .sync1W _ | .sync2W _ | .maskW _ | .dataR | .statusR | .maskR | .txrdyR => false
  | .pinRxd _ | .pinCts _ | .pinDsr _ | .pinTxc _ | .pinRxc _ | .pinSyn _ => false

/-- The pins that a stimulus forces out (45_status_outputs R196): both handshake outputs for CMD_W, all seven for CMD_IR and RESET. -/
def Instr.forced : Instr → List Machine.OutPin
  | .cmdW _ => [.dtr, .rts]
  | .cmdIr _ | .reset => [.dtr, .rts, .txd, .rxrdy, .txrdy, .txempty, .syndet]
  | .dataW _ | .modeW _ | .sync1W _ | .sync2W _ | .maskW _ | .dataR | .statusR | .maskR | .txrdyR => []
  | .pinRxd _ | .pinCts _ | .pinDsr _ | .pinTxc _ | .pinRxc _ | .pinSyn _ => []

/-- The latches after a pin write. -/
def Instr.latch : Instr → Pins → Pins
  | .pinRxd v, p => { p with rxd := v }
  | .pinCts v, p => { p with cts := v }
  | .pinDsr v, p => { p with dsr := v }
  | .pinTxc v, p => { p with txc := v }
  | .pinRxc v, p => { p with rxc := v }
  | .pinSyn v, p => { p with syn := v }
  | .dataW _, p | .modeW _, p | .sync1W _, p | .sync2W _, p | .cmdW _, p | .cmdIr _, p | .maskW _, p => p
  | .dataR, p | .statusR, p | .maskR, p | .txrdyR, p | .reset, p => p

/-! ### Access words -/

/-- The word `k | b` of a bus write (30_encoding R86). -/
def byteWord (k : Word) (b : Byte) : Word := k ||| b.setWidth 16

/-- The word `k | v` of a pin write (R86). -/
def levelWord (k : Word) (v : Bit) : Word := k ||| (BitVec.ofBool v).setWidth 16

/-- The word of `control_w b` (R86). -/
def controlWord (b : Byte) : Word := byteWord 0x1000#16 b

/-- The words that R74 lists, bullet by bullet, in a machine with or without the mask port. -/
def reservedWord (hasMask : Bool) (w : Word) : Bool :=
  (wordClass w == 0b00#2 && wordPort w == 0b11#2)
    || ((wordClass w == 0b00#2 || wordClass w == 0b01#2) && wordZero w != 0#4)
    || (wordClass w == 0b01#2 && wordData w != 0#8)
    || (wordClass w == 0b10#2 && (wordPin w == 0b110#3 || wordPin w == 0b111#3 || wordPinZero w != 0#10))
    || (wordClass w == 0b11#2 && wordResetZero w != 0#14)
    || ((wordClass w == 0b00#2 || wordClass w == 0b01#2) && wordPort w == 0b10#2 && !hasMask)

namespace Machine

/-- The sequencer after a stimulus word (40_sequencer R105): `mode` is the mode byte before it. -/
def seqAfter (seq : Seq) (mode : Byte) (w : Word) : Seq :=
  if w = 0xC000#16 then .expectMode
  else if w.extractLsb' 8 8 = 0x10#8 then
    match seq with
    | .expectMode => if syncMode (wordData w) then .expectSync1 else .expectCommand
    | .expectSync1 => if nsync mode = 2 then .expectSync2 else .expectCommand
    | .expectSync2 => .expectCommand
    | .expectCommand => if (wordData w).getLsbD 6 then .expectMode else .expectCommand
  else seq

/-! ### Frames and outputs -/

/-- `t` with the output side of `s`: two states agree so exactly when they differ at most in outputs, emissions and value. -/
def State.withOutputsOf (t s : State) : State := { t with out := s.out, events := s.events, value := s.value }

/-- Every output pin stands at its level (45_status_outputs R195, R196). -/
abbrev State.Settled (s : State) : Prop := s.out = levels s

/-- From `s` to `t` the outputs were updated by `update_outputs(forced)` (R196). -/
abbrev Emitted (forced : List OutPin) (s t : State) : Prop :=
  t.Settled ∧ t.events = emissions forced { t with out := s.out }

/-- `S.out[p] <- lv` (R196). -/
def OutLevels.set (o : OutLevels) (p : OutPin) (lv : Bit) : OutLevels :=
  match p with
  | .dtr => { o with dtr := lv }
  | .rts => { o with rts := lv }
  | .txd => { o with txd := lv }
  | .rxrdy => { o with rxrdy := lv }
  | .txrdy => { o with txrdy := lv }
  | .txempty => { o with txempty := lv }
  | .syndet => { o with syndet := lv }

/-- The loop of R196, as the rule writes it: each pin in turn is emitted and stored, or left alone. -/
def emitLoop (forced : List OutPin) : List OutPin → State → State
  | [], s => s
  | p :: rest, s =>
    let lv := (levels s).get p
    if forced.contains p || lv != s.out.get p then
      emitLoop forced rest { s with events := s.events ++ [(p, lv)], out := s.out.set p lv }
    else emitLoop forced rest s

/-- `s` after a stimulus that changed only the latches, to `p`, and was seen by nobody (70_reset_and_hazards R232). -/
def State.latchedOnly (s : State) (p : Pins) : State := { s with pins := p, events := [], value := none }

/-! ### What a stimulus does to the receiver -/

/-- The stimulus is a receiver sample: a rising RxC edge while RxE is set (43_receiver R151). -/
abbrev SampledBy (i : Instr) (s : State) : Prop :=
  i = .pinRxc true ∧ s.pins.rxc = false ∧ s.cmd.getLsbD 2 = true

/-- The stimulus is the sample that completes a character: the last bit in alignment in sync mode (R157), the first stop bit at its
centre in async mode (R152, R154). -/
abbrev CompletedBy (i : Instr) (s : State) : Prop :=
  SampledBy i s
    ∧ (syncMode s.mode = true → s.hunt = false ∧ s.rx.bits.length + 1 = nbits s.mode + parityBits s.mode)
    ∧ (syncMode s.mode = false →
        s.rx.state = .frame ∧ s.rx.wait = 1 ∧ s.rx.bits.length = nbits s.mode + parityBits s.mode)

/-- A character being collected has a sample to wait for: the part of `State.RxAsyncOk` that the completion of a character needs. -/
abbrev State.FrameWaits (s : State) : Prop :=
  syncMode s.mode = false → s.rx.state = .frame → 1 ≤ s.rx.wait

/-! ### Power-on and reset -/

/-- Power-on (10_state R42, R9): only the latches and `S.was_reset` are given; every other field may hold anything. -/
abbrev State.PowerOn (s : State) : Prop := s.wasReset = false ∧ s.pins = s.params.init

/-- Every field that the core reset writes has its reset value (70_reset_and_hazards R231). -/
abbrev State.AtResetValues (t : State) : Prop :=
  t.seq = .expectMode ∧ t.mode = 0x00#8 ∧ t.cmd = 0x00#8 ∧ t.sync1 = 0x00#8 ∧ t.sync2 = 0x00#8
    ∧ t.thr = 0x00#8 ∧ t.thre = true
    ∧ t.txDiv = 0 ∧ t.tx.busy = false ∧ t.tx.frame = [] ∧ t.tx.pos = 0 ∧ t.tx.line = true
    ∧ t.rdr = 0x00#8 ∧ t.rxrdy = false
    ∧ t.rx.state = .idle ∧ t.rx.wait = 0 ∧ t.rx.bits = []
    ∧ t.hunt = false ∧ t.huntHist = [] ∧ t.syndet = false
    ∧ t.pe = false ∧ t.oe = false ∧ t.fe = false

/-! ### The invariant -/

/-- R39 item 1, with R102, R104 and R24: what the sequencer state says of the mode and the command byte. -/
abbrev State.SeqOk (s : State) : Prop :=
  (s.seq ≠ .expectCommand → s.cmd = 0#8)
    ∧ (s.seq = .expectSync1 ∨ s.seq = .expectSync2 → syncMode s.mode = true)
    ∧ (s.seq = .expectSync2 → nsync s.mode = 2)
    ∧ s.cmd.getLsbD 6 = false

/-- R39 item 2, with the widths of R27 and R28; the line is the frame bit last driven (R133). -/
abbrev State.TxOk (s : State) : Prop :=
  (s.tx.busy = false → s.tx.frame = [] ∧ s.tx.pos = 0 ∧ s.tx.line = true)
    ∧ (s.tx.busy = true → 1 ≤ s.tx.pos ∧ s.tx.pos ≤ s.tx.frame.length ∧ s.tx.frame.length ≤ 12
        ∧ s.tx.frame[s.tx.pos - 1]? = some s.tx.line)
    ∧ s.txDiv < factor s.mode

/-- R39 items 3 and 4 in async mode, with the widths of R30. -/
abbrev State.RxAsyncOk (s : State) : Prop :=
  syncMode s.mode = false →
    s.hunt = false ∧ s.syndet = false
      ∧ (s.rx.state = .idle → s.rx.wait = 0 ∧ s.rx.bits = [])
      ∧ (s.rx.state = .start → 1 ≤ s.rx.wait ∧ s.rx.wait ≤ factor s.mode / 2 ∧ s.rx.bits = [])
      ∧ (s.rx.state = .frame → 1 ≤ s.rx.wait ∧ s.rx.wait ≤ factor s.mode
          ∧ s.rx.bits.length ≤ nbits s.mode + parityBits s.mode)

/-- The receiver in sync mode (R30): it stays Idle with no wait, and holds bits only outside hunt. -/
abbrev State.RxSyncOk (s : State) : Prop :=
  syncMode s.mode = true →
    s.rx.state = .idle ∧ s.rx.wait = 0
      ∧ s.rx.bits.length < nbits s.mode + parityBits s.mode
      ∧ (s.hunt = true → s.rx.bits = [] ∧ s.syndet = false)

/-- R39 item 5, and a history is held only while hunting (R157). -/
abbrev State.HuntOk (s : State) : Prop :=
  s.huntHist.length ≤ (syncPattern s).length ∧ (s.hunt = false → s.huntHist = [])

/-- The invariant of every state reached from a device reset (R39, R139 for the last clause). -/
abbrev State.Inv (s : State) : Prop :=
  s.wasReset = true ∧ s.SeqOk ∧ s.TxOk ∧ s.RxAsyncOk ∧ s.RxSyncOk ∧ s.HuntOk ∧ s.Settled

/-! ### Runs -/

/-- The state an answer holds, changed by `f`. -/
def mapAnswer (f : State → State) : Answer → Answer
  | .next t => .next (f t)
  | .fault r => .fault r
  | .refused r => .refused r

/-- Several stimuli one after the other; the first fault or refusal ends the run (20_memory R58). -/
def run : List Instr → State → Answer
  | [], s => .next s
  | i :: rest, s =>
    match exec i s with
    | .next t => run rest t
    | .fault r => .fault r
    | .refused r => .refused r

/-- `k` steps. -/
def runSteps : Nat → State → Answer
  | 0, s => .next s
  | k + 1, s =>
    match step s with
    | .next t => runSteps k t
    | .fault r => .fault r
    | .refused r => .refused r

/-- The stimuli of `txticks k` (30_encoding R87). -/
def txTicks : Nat → List Instr
  | 0 => []
  | k + 1 => .pinTxc true :: .pinTxc false :: txTicks k

/-- Receiver samples with these RXD levels, one after the other. -/
def feed : List Bit → State → State
  | [], s => s
  | v :: rest, s => feed rest (rxSample v s)

/-- A line that holds each bit for `f` samples. -/
def atRate (f : Nat) : List Bit → List Bit
  | [] => []
  | b :: rest => List.replicate f b ++ atRate f rest

end Machine

end Sys2Proof
end

