-- ==== Sys2Proof/Certificates/Slice0/Obligations.lean ====
section
/-! DEFINITION. The statements for the provers. Each docstring names the rule of spec/ it formalises, or says that it is derived.
Reading aid: `{ t with f := s.f, … }.withOutputsOf s = s` says that t differs from s at most in the fields f, … and in the output
side (S.out, emissions, value); `Emitted F s t` says what update_outputs(F) did to that side. -/

open Sys2Proof Sys2Proof.Machine

/-! ### The access word -/

/-- Derived (30_encoding, sections 1 and 7): a few access words spelt out by hand from the field tables. -/
def Obligations.SpecWordsDecode : Prop :=
  decode .expectMode 0x104D#16 = some (.modeW 0x4D#8)
    ∧ decode .expectMode 0x1040#16 = some (.modeW 0x40#8)
    ∧ decode .expectSync1 0x1016#16 = some (.sync1W 0x16#8)
    ∧ decode .expectSync2 0x1016#16 = some (.sync2W 0x16#8)
    ∧ decode .expectCommand 0x1027#16 = some (.cmdW 0x27#8)
    ∧ decode .expectCommand 0x1040#16 = some (.cmdIr 0x40#8)
    ∧ decode .expectMode 0x0041#16 = some (.dataW 0x41#8)
    ∧ decode .expectMode 0x20A5#16 = some (.maskW 0xA5#8)
    ∧ decode .expectMode 0x7000#16 = some .txrdyR
    ∧ decode .expectMode 0x9801#16 = some (.pinTxc true)
    ∧ decode .expectMode 0xA800#16 = some (.pinSyn false)
    ∧ decode .expectMode 0xC000#16 = some .reset
    ∧ decode .expectMode 0x3000#16 = none
    ∧ decode .expectMode 0xB000#16 = none

/-- R86 and R75: every word of the notation table decodes to its stimulus, and the control word by S.seq and bit 6. -/
def Obligations.NotationWordsDecode : Prop :=
  ∀ (seq : Seq) (b : Byte) (v : Bit),
    decode seq (byteWord 0x0000#16 b) = some (.dataW b)
      ∧ decode .expectMode (byteWord 0x1000#16 b) = some (.modeW b)
      ∧ decode .expectSync1 (byteWord 0x1000#16 b) = some (.sync1W b)
      ∧ decode .expectSync2 (byteWord 0x1000#16 b) = some (.sync2W b)
      ∧ (b.getLsbD 6 = false → decode .expectCommand (byteWord 0x1000#16 b) = some (.cmdW b))
      ∧ (b.getLsbD 6 = true → decode .expectCommand (byteWord 0x1000#16 b) = some (.cmdIr b))
      ∧ decode seq (byteWord 0x2000#16 b) = some (.maskW b)
      ∧ decode seq 0x4000#16 = some .dataR
      ∧ decode seq 0x5000#16 = some .statusR
      ∧ decode seq 0x6000#16 = some .maskR
      ∧ decode seq 0x7000#16 = some .txrdyR
      ∧ decode seq (levelWord 0x8000#16 v) = some (.pinRxd v)
      ∧ decode seq (levelWord 0x8800#16 v) = some (.pinCts v)
      ∧ decode seq (levelWord 0x9000#16 v) = some (.pinDsr v)
      ∧ decode seq (levelWord 0x9800#16 v) = some (.pinTxc v)
      ∧ decode seq (levelWord 0xA000#16 v) = some (.pinRxc v)
      ∧ decode seq (levelWord 0xA800#16 v) = some (.pinSyn v)
      ∧ decode seq 0xC000#16 = some .reset

/-- Derived (30_encoding, sections 1 and 2): the encoder loses no bit of any stimulus. -/
def Obligations.DecodeOfEncode : Prop :=
  ∀ (seq : Seq) (i : Instr), i.wf = true → i.admittedIn seq = true → decode seq (encode i) = some i

/-- Derived (30_encoding, sections 1 and 2): the decoder loses no bit of any word it accepts. -/
def Obligations.EncodeOfDecode : Prop :=
  ∀ (seq : Seq) (w : Word) (i : Instr),
    decode seq w = some i → encode i = w ∧ i.wf = true ∧ i.admittedIn seq = true

/-- Derived (opcode_table.json): the decoder, written by fields, accepts exactly the words that match a row of the table, under
that row. -/
def Obligations.DecodeMatchesTableRows : Prop :=
  ∀ (seq : Seq) (w : Word),
    (∀ i, decode seq w = some i → w &&& rowMask i = rowMatch i)
      ∧ (decode seq w = none ↔ ∀ i : Instr, i.admittedIn seq = true → w &&& rowMask i ≠ rowMatch i)

/-- R74: the step refuses exactly the reserved words, as reserved, the mask port's among them in the base chip. -/
def Obligations.ReservedWordsAreRefused : Prop :=
  ∀ (s : State) (w : Word) (rest : List Word), s.pending = w :: rest →
    (reservedWord s.params.hasMask w = true → step s = .refused .reservedEncoding)
      ∧ (reservedWord s.params.hasMask w = false → ∀ r, step s ≠ .refused r)

/-! ### The step -/

/-- Derived (00_scope section 3, the step model; the list of words to come is the model's choice, log entry 3): a step is the
decoded stimulus on the state without its word; with no word to come the core holds its state and the output side falls silent. -/
def Obligations.StepRunsTheDecodedStimulus : Prop :=
  (∀ (s : State) (w : Word) (rest : List Word) (i : Instr),
    s.pending = w :: rest → decode s.seq w = some i → step s = exec i { s with pending := rest })
    ∧ ∀ s : State, s.pending = [] → step s = .next { s with events := [], value := none }

/-- Derived (20_memory section 4; log entries 1 and 3): a step takes one word, and no stimulus changes a parameter. -/
def Obligations.StepTakesOneStimulus : Prop :=
  ∀ s t : State, step s = .next t → t.params = s.params ∧ t.pending = s.pending.tail

/-- Derived (93_implementation_defined, end of section 1: every admitted stimulus has a successor state). -/
def Obligations.EveryAdmittedStimulusCompletes : Prop :=
  ∀ (i : Instr) (s : State), s.wasReset = true → (i.isMaskPort = true → s.params.hasMask = true) →
    ∃ t, exec i s = .next t

/-- R232: before the first reset a bus access faults, a pin write writes its latch only, and RESET is valid. -/
def Obligations.BeforeFirstReset : Prop :=
  ∀ (i : Instr) (s : State), s.wasReset = false →
    (i.isBusAccess = true → (i.isMaskPort = true → s.params.hasMask = true) → exec i s = .fault .unreset)
      ∧ (i.isPinWrite = true → exec i s = .next (s.latchedOnly (i.latch s.pins)))
      ∧ (i = .reset → ∃ t, exec i s = .next t)

/-! ### Reset -/

/-- R230: RESET, its word and its effect from any state. -/
def Obligations.DeviceReset : Prop :=
  (∀ seq, decode seq 0xC000#16 = some .reset)
    ∧ ∀ s : State, ∃ t, exec .reset s = .next t ∧ t.AtResetValues
      ∧ t.mask = (if s.params.hasMask then s.params.maskReset else s.mask)
      ∧ t.wasReset = true ∧ t.pins = s.pins ∧ t.params = s.params ∧ t.pending = s.pending
      ∧ t.out = { dtr := true, rts := true, txd := true, rxrdy := false, txrdy := false, txempty := true, syndet := false }
      ∧ t.events = [(.dtr, true), (.rts, true), (.txd, true), (.rxrdy, false), (.txrdy, false), (.txempty, true),
          (.syndet, false)]
      ∧ t.value = none

/-- R111 and R231: the internal-reset command, whatever its other bits, resets the core and keeps the mask and the latches. -/
def Obligations.InternalReset : Prop :=
  ∀ (b : Byte) (s : State),
    (b.getLsbD 6 = true → decode .expectCommand (byteWord 0x1000#16 b) = some (.cmdIr b))
      ∧ (s.wasReset = true → ∃ t, exec (.cmdIr b) s = .next t ∧ t.AtResetValues
        ∧ t.mask = s.mask ∧ t.wasReset = true ∧ t.pins = s.pins ∧ t.params = s.params ∧ t.pending = s.pending
        ∧ t.out =
            { dtr := true, rts := true, txd := true, rxrdy := false, txrdy := false, txempty := true, syndet := false }
        ∧ t.events = [(.dtr, true), (.rts, true), (.txd, true), (.rxrdy, false), (.txrdy, false), (.txempty, true),
            (.syndet, false)]
        ∧ t.value = none)

/-- Derived (10_state sections 4 and 7; the model's State.reset, log entries 1, 2, 3 and 5): device reset out of any power-on
state of the chosen machine, with no word to come, gives State.reset. -/
def Obligations.ResetStateFromPowerOn : Prop :=
  ∀ s : State, s.PowerOn → s.params = Config.params → s.pending = [] → exec .reset s = .next State.reset

/-! ### The register-write sequencer -/

/-- R101: MODE_W. -/
def Obligations.ModeWrite : Prop :=
  ∀ (b : Byte) (s : State),
    decode .expectMode (byteWord 0x1000#16 b) = some (.modeW b)
      ∧ (s.wasReset = true → ∃ t, exec (.modeW b) s = .next t
        ∧ t.mode = b ∧ t.txDiv = 0
        ∧ t.tx.busy = false ∧ t.tx.frame = [] ∧ t.tx.pos = 0 ∧ t.tx.line = true
        ∧ t.rx.state = .idle ∧ t.rx.wait = 0 ∧ t.rx.bits = [] ∧ t.huntHist = []
        ∧ t.syndet = false
        ∧ t.hunt = syncMode b
        ∧ t.seq = (if syncMode b then .expectSync1 else .expectCommand)
        ∧ { t with mode := s.mode, txDiv := s.txDiv, tx := s.tx, rx := s.rx, huntHist := s.huntHist, syndet := s.syndet,
                   hunt := s.hunt, seq := s.seq }.withOutputsOf s = s
        ∧ Emitted [] s t ∧ t.value = none)

/-- R102 and R103: SYNC1_W and SYNC2_W. -/
def Obligations.SyncWrites : Prop :=
  ∀ (b : Byte) (s : State),
    decode .expectSync1 (byteWord 0x1000#16 b) = some (.sync1W b)
      ∧ decode .expectSync2 (byteWord 0x1000#16 b) = some (.sync2W b)
      ∧ (s.wasReset = true → ∃ t, exec (.sync1W b) s = .next t ∧ t.sync1 = b
        ∧ t.seq = (if nsync s.mode = 2 then .expectSync2 else .expectCommand)
        ∧ { t with sync1 := s.sync1, seq := s.seq }.withOutputsOf s = s ∧ Emitted [] s t ∧ t.value = none)
      ∧ (s.wasReset = true → ∃ t, exec (.sync2W b) s = .next t ∧ t.sync2 = b ∧ t.seq = .expectCommand
        ∧ { t with sync2 := s.sync2, seq := s.seq }.withOutputsOf s = s ∧ Emitted [] s t ∧ t.value = none)

/-- R100: a control-port write is the stimulus its sequencer state selects, and faults before the first reset. -/
def Obligations.ControlWriteDispatch : Prop :=
  ∀ (s : State) (b : Byte) (rest : List Word), s.pending = controlWord b :: rest →
    (s.wasReset = false → step s = .fault .unreset)
      ∧ (s.seq = .expectMode → step s = exec (.modeW b) { s with pending := rest })
      ∧ (s.seq = .expectSync1 → step s = exec (.sync1W b) { s with pending := rest })
      ∧ (s.seq = .expectSync2 → step s = exec (.sync2W b) { s with pending := rest })
      ∧ (s.seq = .expectCommand → b.getLsbD 6 = true → step s = exec (.cmdIr b) { s with pending := rest })
      ∧ (s.seq = .expectCommand → b.getLsbD 6 = false → step s = exec (.cmdW b) { s with pending := rest })

/-- Derived (40_sequencer, the transition table after the sync writes): the sequencer after any step. -/
def Obligations.SequencerTransitions : Prop :=
  ∀ (s t : State) (w : Word) (rest : List Word), s.pending = w :: rest → step s = .next t →
    t.seq = seqAfter s.seq s.mode w

/-- Derived (70_reset_and_hazards section 2): writing 0x00, 0x00, 0x00, 0x40 to the control port reaches ExpectMode from any state
after a reset. -/
def Obligations.SafeResetIdiom : Prop :=
  ∀ (s : State) (rest : List Word), s.wasReset = true →
    s.pending = controlWord 0x00#8 :: controlWord 0x00#8 :: controlWord 0x00#8 :: controlWord 0x40#8 :: rest →
    ∃ t, runSteps 4 s = .next t ∧ t.seq = .expectMode ∧ t.mode = 0x00#8 ∧ t.cmd = 0x00#8 ∧ t.pending = rest

/-! ### Command bytes and the handshake lines -/

/-- R110, R113 and R114: CMD_W. -/
def Obligations.CommandWrite : Prop :=
  ∀ (b : Byte) (s : State), b.getLsbD 6 = false →
    decode .expectCommand (byteWord 0x1000#16 b) = some (.cmdW b)
      ∧ (s.wasReset = true → ∃ t, exec (.cmdW b) s = .next t
        ∧ t.cmd = b
        ∧ (b.getLsbD 2 = false → t.rx.state = .idle ∧ t.rx.wait = 0 ∧ t.rx.bits = [] ∧ t.huntHist = [])
        ∧ (b.getLsbD 4 = true → t.pe = false ∧ t.oe = false ∧ t.fe = false)
        ∧ (b.getLsbD 4 = false → t.pe = s.pe ∧ t.oe = s.oe ∧ t.fe = s.fe)
        ∧ (b.getLsbD 7 = true → syncMode s.mode = true →
            t.hunt = true ∧ t.syndet = false ∧ t.huntHist = [] ∧ t.rx.bits = [])
        ∧ (¬(b.getLsbD 7 = true ∧ syncMode s.mode = true) → t.hunt = s.hunt ∧ t.syndet = s.syndet)
        ∧ (b.getLsbD 2 = true → t.rx.state = s.rx.state ∧ t.rx.wait = s.rx.wait)
        ∧ (b.getLsbD 2 = true → ¬(b.getLsbD 7 = true ∧ syncMode s.mode = true) →
            t.rx.bits = s.rx.bits ∧ t.huntHist = s.huntHist)
        ∧ { t with cmd := s.cmd, rx := s.rx, huntHist := s.huntHist, pe := s.pe, oe := s.oe, fe := s.fe, hunt := s.hunt,
                   syndet := s.syndet }.withOutputsOf s = s
        ∧ Emitted [.dtr, .rts] s t ∧ t.value = none)

/-- Derived (10_state section 1, the command register, and 41_command_handshake section 1, error reset): the stored copies of ER
and EH have no later effect on anything. -/
def Obligations.StoredActionBitsAreDead : Prop :=
  ∀ (i : Instr) (k : Byte) (s : State), k &&& 0x6F#8 = 0x00#8 →
    exec i { s with cmd := s.cmd ^^^ k }
      = mapAnswer (fun t => if i.writesCommand then t else { t with cmd := t.cmd ^^^ k }) (exec i s)

/-- R116: CMD_W emits DTR first and RTS, at the levels of bits 1 and 5; RESET and CMD_IR emit both; from a state whose outputs
stand at their levels no other stimulus changes the command byte or emits either. -/
def Obligations.CommandEmitsHandshakeOutputs : Prop :=
  (∀ (b : Byte) (s t : State), exec (.cmdW b) s = .next t →
    t.events.take 2 = [(.dtr, !b.getLsbD 1), (.rts, !b.getLsbD 5)])
    ∧ (∀ (i : Instr) (s t : State), ((∃ b, i = .cmdIr b) ∨ i = .reset) → exec i s = .next t →
        t.events.take 2 = [(.dtr, true), (.rts, true)])
    ∧ ∀ (i : Instr) (s t : State), s.Settled → i.writesCommand = false → exec i s = .next t →
        t.cmd = s.cmd ∧ ∀ lv, (OutPin.dtr, lv) ∉ t.events ∧ (OutPin.rts, lv) ∉ t.events

/-- R117: TXD is 0 while SBRK is set and shows the line otherwise, and the transmitter moves the same under a break. -/
def Obligations.SendBreak : Prop :=
  (∀ (i : Instr) (s t : State), s.wasReset = true → s.Settled → exec i s = .next t →
    (t.cmd.getLsbD 3 = true → t.out.txd = false) ∧ (t.cmd.getLsbD 3 = false → t.out.txd = t.tx.line))
    ∧ ∀ (v : Bit) (s t : State), exec (.pinTxc v) s = .next t →
        ∃ t', exec (.pinTxc v) { s with cmd := s.cmd ^^^ 0x08#8 } = .next t'
          ∧ t'.tx = t.tx ∧ t'.txDiv = t.txDiv ∧ t'.thre = t.thre

/-- R118: PIN_CTS. -/
def Obligations.CtsWrite : Prop :=
  ∀ (v : Bit) (s : State),
    (∀ seq, decode seq (levelWord 0x8800#16 v) = some (.pinCts v))
      ∧ (s.wasReset = false → exec (.pinCts v) s = .next (s.latchedOnly { s.pins with cts := v }))
      ∧ (s.wasReset = true → ∃ t, exec (.pinCts v) s = .next t
        ∧ t.pins = { s.pins with cts := v }
        ∧ t.out.txrdy = (s.thre && s.cmd.getLsbD 0 && !v)
        ∧ { t with pins := s.pins }.withOutputsOf s = s ∧ Emitted [] s t ∧ t.value = none
        ∧ (s.Settled → t.events = if t.out.txrdy = s.out.txrdy then [] else [(.txrdy, t.out.txrdy)]))

/-- R119 and R150: PIN_DSR and PIN_RXD write their latch; no output depends on it, so from a state whose outputs stand at their
levels nothing is emitted. -/
def Obligations.QuietPinWrites : Prop :=
  ∀ (v : Bit) (s : State),
    (∀ seq, decode seq (levelWord 0x9000#16 v) = some (.pinDsr v)
        ∧ decode seq (levelWord 0x8000#16 v) = some (.pinRxd v))
      ∧ (s.wasReset = false → exec (.pinDsr v) s = .next (s.latchedOnly { s.pins with dsr := v })
        ∧ exec (.pinRxd v) s = .next (s.latchedOnly { s.pins with rxd := v }))
      ∧ (s.wasReset = true → ∃ t, exec (.pinDsr v) s = .next t ∧ t.pins = { s.pins with dsr := v }
        ∧ { t with pins := s.pins }.withOutputsOf s = s ∧ Emitted [] s t ∧ t.value = none
        ∧ (s.Settled → t.events = [] ∧ t.out = s.out))
      ∧ (s.wasReset = true → ∃ t, exec (.pinRxd v) s = .next t ∧ t.pins = { s.pins with rxd := v }
        ∧ { t with pins := s.pins }.withOutputsOf s = s ∧ Emitted [] s t ∧ t.value = none
        ∧ (s.Settled → t.events = [] ∧ t.out = s.out))

/-! ### The transmitter -/

/-- R131: DATA_W, accepted exactly when THR is empty. -/
def Obligations.DataWrite : Prop :=
  ∀ (b : Byte) (s : State),
    (∀ seq, decode seq (byteWord 0x0000#16 b) = some (.dataW b))
      ∧ (s.wasReset = false → exec (.dataW b) s = .fault .unreset)
      ∧ (s.wasReset = true → ∃ t, exec (.dataW b) s = .next t
        ∧ t.thre = false ∧ t.thr = (if s.thre then b else s.thr)
        ∧ t.out.txrdy = false ∧ t.out.txempty = false
        ∧ { t with thr := s.thr, thre := s.thre }.withOutputsOf s = s ∧ Emitted [] s t ∧ t.value = none)

/-- R133: the three branches of a bit tick. -/
def Obligations.BitTick : Prop :=
  ∀ s : State,
    (s.tx.busy = true → s.tx.pos < s.tx.frame.length →
      ∃ b, s.tx.frame[s.tx.pos]? = some b
        ∧ txBitTick s = { s with tx := { s.tx with line := b, pos := s.tx.pos + 1 } })
      ∧ (¬(s.tx.busy = true ∧ s.tx.pos < s.tx.frame.length) → s.thre = false → s.cmd.getLsbD 0 = true →
          s.pins.cts = false →
          ∃ b, (txFrameOf s.thr s.mode)[0]? = some b
            ∧ txBitTick s = { s with
                tx := { busy := true, frame := txFrameOf s.thr s.mode, pos := 1, line := b }, thre := true })
      ∧ (¬(s.tx.busy = true ∧ s.tx.pos < s.tx.frame.length) →
          ¬(s.thre = false ∧ s.cmd.getLsbD 0 = true ∧ s.pins.cts = false) →
          txBitTick s = { s with tx := { busy := false, frame := [], pos := 0, line := true } })

/-- R132: PIN_TXC counts falling edges, and every factor-th is a bit tick. -/
def Obligations.TxClockWrite : Prop :=
  ∀ (v : Bit) (s : State),
    (∀ seq, decode seq (levelWord 0x9800#16 v) = some (.pinTxc v))
      ∧ (s.wasReset = false → exec (.pinTxc v) s = .next (s.latchedOnly { s.pins with txc := v }))
      ∧ (s.wasReset = true → ∃ t, exec (.pinTxc v) s = .next t
        ∧ (¬(s.pins.txc = true ∧ v = false) →
            t.withOutputsOf s = { s with pins := { s.pins with txc := v } })
        ∧ (s.pins.txc = true → v = false → s.txDiv + 1 < factor s.mode →
            t.withOutputsOf s = { s with pins := { s.pins with txc := v }, txDiv := s.txDiv + 1 })
        ∧ (s.pins.txc = true → v = false → factor s.mode ≤ s.txDiv + 1 →
            t.withOutputsOf s = txBitTick { s with pins := { s.pins with txc := v }, txDiv := 0 })
        ∧ Emitted [] s t ∧ t.value = none)

/-- Derived (20_memory section 4): a TxC write changes only its latch, the divider, the transmitter shift state and the
holding-register-empty flag; an RxC write changes only its latch and receiver fields; and from a state whose outputs stand at their
levels the two emit on disjoint pins. -/
def Obligations.ClocksTouchDisjointState : Prop :=
  ∀ (v : Bit) (s t : State),
    (exec (.pinTxc v) s = .next t →
      { t with pins := { t.pins with txc := s.pins.txc }, txDiv := s.txDiv, tx := s.tx,
               thre := s.thre }.withOutputsOf s = s
        ∧ (s.Settled → ∀ e ∈ t.events, e.1 = .txd ∨ e.1 = .txrdy ∨ e.1 = .txempty))
    ∧ (exec (.pinRxc v) s = .next t →
      { t with pins := { t.pins with rxc := s.pins.rxc }, rx := s.rx, hunt := s.hunt, huntHist := s.huntHist,
               syndet := s.syndet, rdr := s.rdr, rxrdy := s.rxrdy, pe := s.pe, oe := s.oe,
               fe := s.fe }.withOutputsOf s = s
        ∧ (s.Settled → ∀ e ∈ t.events, e.1 = .rxrdy ∨ e.1 = .syndet))

/-- Derived (20_memory section 4): a TxC write and an RxC write, in either order, end in the same state but for the last
stimulus's emissions. -/
def Obligations.ClocksCommute : Prop :=
  ∀ (u v : Bit) (s : State), ∃ t t',
    run [.pinTxc u, .pinRxc v] s = .next t ∧ run [.pinRxc v, .pinTxc u] s = .next t'
      ∧ { t with events := [] } = { t' with events := [] }

/-- Derived (42_transmitter section 2, after the bit tick): while frame bits are left, MODE_W, CMD_IR and RESET abandon the frame;
the falling TxC edge that reaches the factor drives the next bit, whatever TxEN and CTS say; no other stimulus moves it. -/
def Obligations.FrameInFlightCompletes : Prop :=
  ∀ (i : Instr) (s t : State), exec i s = .next t → s.tx.busy = true → s.tx.pos < s.tx.frame.length →
    ((∃ b, i = .modeW b) ∨ (∃ b, i = .cmdIr b) ∨ i = .reset →
        t.tx = { busy := false, frame := [], pos := 0, line := true })
      ∧ (s.wasReset = true ∧ i = .pinTxc false ∧ s.pins.txc = true ∧ factor s.mode ≤ s.txDiv + 1 →
          ∃ b, s.tx.frame[s.tx.pos]? = some b ∧ t.tx = { s.tx with line := b, pos := s.tx.pos + 1 })
      ∧ (¬((∃ b, i = .modeW b) ∨ (∃ b, i = .cmdIr b) ∨ i = .reset) →
          ¬(s.wasReset = true ∧ i = .pinTxc false ∧ s.pins.txc = true ∧ factor s.mode ≤ s.txDiv + 1) →
          t.tx = s.tx)

/-- Derived (42_transmitter sections 2 and 3): a byte waiting in THR of an enabled transmitter that is not in mid-frame is clocked
out: after k·F TxC ticks the line carries bit k-1 of its frame, and after (N+1)·F the transmitter is idle and TXEMPTY is 1. -/
def Obligations.FrameIsClockedOut : Prop :=
  ∀ (s : State), s.wasReset = true → s.thre = false → s.cmd.getLsbD 0 = true → s.pins.cts = false →
    ¬(s.tx.busy = true ∧ s.tx.pos < s.tx.frame.length) → s.txDiv = 0 →
    (∀ k, 1 ≤ k → k ≤ (txFrameOf s.thr s.mode).length →
      ∃ t, run (txTicks (k * factor s.mode)) s = .next t
        ∧ t.tx.busy = true ∧ t.tx.pos = k ∧ t.tx.frame = txFrameOf s.thr s.mode
        ∧ (txFrameOf s.thr s.mode)[k - 1]? = some t.tx.line
        ∧ t.out.txd = (if s.cmd.getLsbD 3 then false else t.tx.line)
        ∧ t.out.txrdy = true ∧ t.out.txempty = false)
    ∧ ∃ t, run (txTicks (((txFrameOf s.thr s.mode).length + 1) * factor s.mode)) s = .next t
        ∧ t.tx = { busy := false, frame := [], pos := 0, line := true }
        ∧ t.out.txrdy = true ∧ t.out.txempty = true

/-- Derived (42_transmitter section 2, back-to-back transmission): the bit tick that ends a frame loads a byte that waits, TXEMPTY
stays 0, and the line carries the new frame's first bit. -/
def Obligations.BackToBack : Prop :=
  ∀ (s : State), s.wasReset = true → s.tx.busy = true → s.tx.pos = s.tx.frame.length →
    s.thre = false → s.cmd.getLsbD 0 = true → s.pins.cts = false → s.pins.txc = true →
    factor s.mode ≤ s.txDiv + 1 →
    ∃ t, exec (.pinTxc false) s = .next t ∧ t.tx.busy = true ∧ t.tx.frame = txFrameOf s.thr s.mode ∧ t.tx.pos = 1
      ∧ (txFrameOf s.thr s.mode)[0]? = some t.tx.line ∧ t.thre = true ∧ t.out.txempty = false

/-- R139: TXRDY_R. -/
def Obligations.TxrdyRead : Prop :=
  (∀ seq, decode seq 0x7000#16 = some .txrdyR)
    ∧ ∀ s : State,
      (s.wasReset = false → exec .txrdyR s = .fault .unreset)
        ∧ (s.wasReset = true → ∃ t, exec .txrdyR s = .next t
          ∧ t.value = some (if s.thre = true ∧ s.cmd.getLsbD 0 = true ∧ s.pins.cts = false then 0x01#8 else 0x00#8)
          ∧ (s.Settled → t.value = some (if s.out.txrdy then 0x01#8 else 0x00#8))
          ∧ t.events = [] ∧ { t with events := s.events, value := s.value } = s)

/-! ### The receiver -/

/-- R151: PIN_RXC samples on a rising edge while RxE is set, and otherwise only latches. -/
def Obligations.RxClockWrite : Prop :=
  ∀ (v : Bit) (s : State),
    (∀ seq, decode seq (levelWord 0xA000#16 v) = some (.pinRxc v))
      ∧ (s.wasReset = false → exec (.pinRxc v) s = .next (s.latchedOnly { s.pins with rxc := v }))
      ∧ (s.wasReset = true → ∃ t, exec (.pinRxc v) s = .next t
        ∧ (¬(s.pins.rxc = false ∧ v = true ∧ s.cmd.getLsbD 2 = true) →
            t.withOutputsOf s = { s with pins := { s.pins with rxc := v } })
        ∧ (s.pins.rxc = false → v = true → s.cmd.getLsbD 2 = true → syncMode s.mode = true →
            t.withOutputsOf s = rxSyncSample s.pins.rxd { s with pins := { s.pins with rxc := v } })
        ∧ (s.pins.rxc = false → v = true → s.cmd.getLsbD 2 = true → syncMode s.mode = false →
            t.withOutputsOf s = rxAsyncSample s.pins.rxd { s with pins := { s.pins with rxc := v } })
        ∧ Emitted [] s t ∧ t.value = none)

/-- R152 and R153: an asynchronous sample up to and at the middle of the start bit, and between the bit centres. -/
def Obligations.AsyncStartDetection : Prop :=
  ∀ (v : Bit) (s : State),
    (s.rx.state = .idle → v = true → rxAsyncSample v s = s)
      ∧ (s.rx.state = .idle → v = false → factor s.mode = 1 →
          rxAsyncSample v s = { s with rx := { state := .frame, wait := 1, bits := [] } })
      ∧ (s.rx.state = .idle → v = false → factor s.mode ≠ 1 →
          rxAsyncSample v s = { s with rx := { s.rx with state := .start, wait := factor s.mode / 2 } })
      ∧ (s.rx.state ≠ .idle → 2 ≤ s.rx.wait →
          rxAsyncSample v s = { s with rx := { s.rx with wait := s.rx.wait - 1 } })
      ∧ (s.rx.state = .start → s.rx.wait = 1 → v = true →
          rxAsyncSample v s = { s with rx := { state := .idle, wait := 0, bits := [] } })
      ∧ (s.rx.state = .start → s.rx.wait = 1 → v = false →
          rxAsyncSample v s = { s with rx := { state := .frame, wait := factor s.mode, bits := [] } })
      ∧ (s.rx.state = .frame → s.rx.wait = 1 → rxAsyncSample v s = rxFrameBit v s)

/-- R154, R155 and R156: one frame bit of an asynchronous character. The list grows until it holds the data bits, the parity bit if
any and the first stop bit; the character then completes, sets the flags it fails, and is stored unless one is unread. -/
def Obligations.AsyncFrameBit : Prop :=
  ∀ (v : Bit) (s : State), syncMode s.mode = false →
    (s.rx.bits.length ≠ nbits s.mode + parityBits s.mode →
      rxFrameBit v s = { s with rx := { s.rx with bits := s.rx.bits ++ [v], wait := factor s.mode } })
      ∧ (s.rx.bits.length = nbits s.mode + parityBits s.mode →
          ∃ data : Byte, data.toNat = valueOf (s.rx.bits.take (nbits s.mode))
            ∧ rxFrameBit v s = { s with
                rx := { state := .idle, wait := 0, bits := [] }
                fe := s.fe || !v
                pe := s.pe || (pen s.mode
                  && s.rx.bits[nbits s.mode]? != some (parityBit data (nbits s.mode) (even s.mode)))
                oe := s.oe || s.rxrdy
                rdr := if s.rxrdy then s.rdr else data
                rxrdy := true })

/-- R157 and R159: one synchronous sample, hunting and in character alignment. -/
def Obligations.SyncSample : Prop :=
  ∀ (v : Bit) (s : State),
    (s.hunt = true → esd s.mode = true → rxSyncSample v s = s)
      ∧ (s.hunt = true → esd s.mode = false →
          lastBits (syncPattern s).length (s.huntHist ++ [v]) = syncPattern s →
          rxSyncSample v s = { s with hunt := false, syndet := true, rx := { s.rx with bits := [] }, huntHist := [] })
      ∧ (s.hunt = true → esd s.mode = false →
          lastBits (syncPattern s).length (s.huntHist ++ [v]) ≠ syncPattern s →
          rxSyncSample v s = { s with huntHist := lastBits (syncPattern s).length (s.huntHist ++ [v]) })
      ∧ (s.hunt = false → s.rx.bits.length + 1 ≠ nbits s.mode + parityBits s.mode →
          rxSyncSample v s = { s with rx := { s.rx with bits := s.rx.bits ++ [v] } })
      ∧ (s.hunt = false → s.rx.bits.length + 1 = nbits s.mode + parityBits s.mode →
          ∃ data : Byte, data.toNat = valueOf ((s.rx.bits ++ [v]).take (nbits s.mode))
            ∧ rxSyncSample v s = { s with
                rx := { s.rx with bits := [] }
                pe := s.pe || (pen s.mode && v != parityBit data (nbits s.mode) (even s.mode))
                oe := s.oe || s.rxrdy
                rdr := if s.rxrdy then s.rdr else data
                rxrdy := true })

/-- R158: the sync pattern, its bits and its length. -/
def Obligations.SyncPatternShape : Prop :=
  ∀ s : State,
    (nsync s.mode = 1 →
      syncPattern s = bitsOf s.sync1 (nbits s.mode)
          ++ (if pen s.mode then [parityBit s.sync1 (nbits s.mode) (even s.mode)] else [])
        ∧ (syncPattern s).length = nbits s.mode + parityBits s.mode)
      ∧ (nsync s.mode = 2 →
          syncPattern s =
              (bitsOf s.sync1 (nbits s.mode)
                ++ (if pen s.mode then [parityBit s.sync1 (nbits s.mode) (even s.mode)] else []))
              ++ (bitsOf s.sync2 (nbits s.mode)
                ++ (if pen s.mode then [parityBit s.sync2 (nbits s.mode) (even s.mode)] else []))
            ∧ (syncPattern s).length = 2 * (nbits s.mode + parityBits s.mode))
      ∧ (nsync s.mode ≠ 0 → 5 ≤ (syncPattern s).length ∧ (syncPattern s).length ≤ 18)

/-- Derived (43_receiver sections 4 and 5): fed exactly the sync pattern from the start of an internal hunt, the receiver hunts until
its last bit and then declares sync; nothing else changes. -/
def Obligations.HuntFindsPattern : Prop :=
  ∀ s : State, syncMode s.mode = true → esd s.mode = false → s.hunt = true → s.huntHist = [] →
    (∀ k, k < (syncPattern s).length → (feed ((syncPattern s).take k) s).hunt = true
      ∧ (feed ((syncPattern s).take k) s).syndet = s.syndet)
      ∧ feed (syncPattern s) s = { s with hunt := false, syndet := true, rx := { s.rx with bits := [] } }

/-- R160: PIN_SYN. -/
def Obligations.ExternalSync : Prop :=
  ∀ (v : Bit) (s : State),
    (∀ seq, decode seq (levelWord 0xA800#16 v) = some (.pinSyn v))
      ∧ (s.wasReset = false → exec (.pinSyn v) s = .next (s.latchedOnly { s.pins with syn := v }))
      ∧ (s.wasReset = true → ∃ t, exec (.pinSyn v) s = .next t
        ∧ (s.pins.syn = false ∧ v = true ∧ esd s.mode = true ∧ s.hunt = true ∧ s.cmd.getLsbD 2 = true →
            t.withOutputsOf s = { s with pins := { s.pins with syn := v }, hunt := false, syndet := true,
                                         rx := { s.rx with bits := [] }, huntHist := [] })
        ∧ (¬(s.pins.syn = false ∧ v = true ∧ esd s.mode = true ∧ s.hunt = true ∧ s.cmd.getLsbD 2 = true) →
            t.withOutputsOf s = { s with pins := { s.pins with syn := v } })
        ∧ Emitted [] s t ∧ t.value = none)

/-- R161: DATA_R, stale byte or not. -/
def Obligations.DataRead : Prop :=
  (∀ seq, decode seq 0x4000#16 = some .dataR)
    ∧ ∀ s : State,
      (s.wasReset = false → exec .dataR s = .fault .unreset)
        ∧ (s.wasReset = true → ∃ t, exec .dataR s = .next t
          ∧ t.value = some s.rdr
          ∧ t.rxrdy = (if s.params.rxrdyClearOnRead then false else s.rxrdy)
          ∧ { t with rxrdy := s.rxrdy }.withOutputsOf s = s ∧ Emitted [] s t)

/-- R162: exactly what sets sync detect, each time ending hunt, and exactly what clears it. -/
def Obligations.SyndetLifecycle : Prop :=
  ∀ (i : Instr) (s t : State), exec i s = .next t →
    (s.wasReset = true → s.syndet = false →
      (t.syndet = true ↔
        (i = .pinRxc true ∧ s.pins.rxc = false ∧ s.cmd.getLsbD 2 = true ∧ syncMode s.mode = true ∧ esd s.mode = false
            ∧ s.hunt = true
            ∧ lastBits (syncPattern s).length (s.huntHist ++ [s.pins.rxd]) = syncPattern s)
          ∨ (i = .pinSyn true ∧ s.pins.syn = false ∧ s.cmd.getLsbD 2 = true ∧ esd s.mode = true ∧ s.hunt = true)))
      ∧ (s.syndet = false → t.syndet = true → t.hunt = false)
      ∧ (s.syndet = true →
          (t.syndet = false ↔
            (∃ b, i = .cmdW b ∧ b.getLsbD 7 = true ∧ syncMode s.mode = true)
              ∨ (∃ b, i = .modeW b) ∨ (∃ b, i = .cmdIr b) ∨ i = .reset))

/-- R193, with the receive data register of R156: rx-ready rises, and the register changes, only on a sample; it rises exactly when
a sample completes a character into an empty register, which stores that character; it falls exactly on a clearing read and on a
reset, and the pin follows it. `FrameWaits` is part of the invariant and rules out states that no run reaches. -/
def Obligations.RxReadyLifecycle : Prop :=
  ∀ (i : Instr) (s t : State), exec i s = .next t →
    (s.rxrdy = false → t.rxrdy = true → SampledBy i s)
      ∧ (s.wasReset = true → s.FrameWaits → s.rxrdy = false → (t.rxrdy = true ↔ CompletedBy i s))
      ∧ (s.wasReset = true → s.rxrdy = false → CompletedBy i s →
          t.rdr.toNat = valueOf ((s.rx.bits ++ [s.pins.rxd]).take (nbits s.mode)))
      ∧ (s.rxrdy = true →
          (t.rxrdy = false ↔
            (i = .dataR ∧ s.params.rxrdyClearOnRead = true) ∨ (∃ b, i = .cmdIr b) ∨ i = .reset))
      ∧ (t.rdr ≠ s.rdr →
          (SampledBy i s ∧ s.rxrdy = false ∧ t.rxrdy = true) ∨ (∃ b, i = .cmdIr b) ∨ i = .reset)
      ∧ (s.wasReset = true → s.Settled → t.out.rxrdy = t.rxrdy)

/-- R212 and R33: a command with ER, CMD_IR and RESET clear the three error flags; through every other stimulus a set flag stays set.
Only a sample sets one, and only one that completes a character (`FrameWaits` is part of the invariant). They read as status
bits 3, 4 and 5. -/
def Obligations.ErrorFlagsAreSticky : Prop :=
  ∀ (i : Instr) (s t : State), exec i s = .next t →
    ((∃ b, i = .cmdW b ∧ b.getLsbD 4 = true) ∨ (∃ b, i = .cmdIr b) ∨ i = .reset →
      t.pe = false ∧ t.oe = false ∧ t.fe = false)
      ∧ (¬((∃ b, i = .cmdW b ∧ b.getLsbD 4 = true) ∨ (∃ b, i = .cmdIr b) ∨ i = .reset) →
          (s.pe = true → t.pe = true) ∧ (s.oe = true → t.oe = true) ∧ (s.fe = true → t.fe = true))
      ∧ ((s.pe = false ∧ t.pe = true) ∨ (s.oe = false ∧ t.oe = true) ∨ (s.fe = false ∧ t.fe = true) →
          SampledBy i s ∧ (s.FrameWaits → CompletedBy i s))
      ∧ (s.wasReset = true → ∃ u b, exec .statusR s = .next u ∧ u.value = some b
          ∧ b.getLsbD 3 = s.pe ∧ b.getLsbD 4 = s.oe ∧ b.getLsbD 5 = s.fe)

/-- Derived (44_codec, the round-trip property, and 43_receiver section 2's sample points): at any factor, a transmitted async frame
sampled by an idle receiver of the same mode stores exactly the character's low bits, with no error. -/
def Obligations.AsyncRoundTrip : Prop :=
  ∀ (c : Byte) (s : State), syncMode s.mode = false → s.rx = { state := .idle, wait := 0, bits := [] } →
    s.rxrdy = false →
    ∃ data : Byte, data.toNat = c.toNat % 2 ^ nbits s.mode
      ∧ feed (atRate (factor s.mode) (txFrameOf c s.mode)) s = { s with rdr := data, rxrdy := true }

/-- Derived (44_codec, the round-trip property, in sync mode): a character sent after sync was found is received whole. -/
def Obligations.SyncRoundTrip : Prop :=
  ∀ (c : Byte) (s : State), syncMode s.mode = true → s.hunt = false → s.rx.bits = [] → s.rxrdy = false →
    ∃ data : Byte, data.toNat = c.toNat % 2 ^ nbits s.mode
      ∧ feed (txFrameOf c s.mode) s = { s with rdr := data, rxrdy := true }

/-! ### The codec and the configuration bytes -/

/-- R180: the parity bit makes the count of ones even or odd, as configured, and only the low n bits count. -/
def Obligations.ParityTotals : Prop :=
  ∀ (c : Byte) (n : Nat) (ev : Bool),
    parityBit c n ev = ((bitsOf c n).count true % 2 == 1 ^^ !ev)
      ∧ ((bitsOf c n).count true + (parityBit c n ev).toNat) % 2 = (if ev then 0 else 1)
      ∧ ∀ c' : Byte, (∀ k, k < n → c'.getLsbD k = c.getLsbD k) → parityBit c' n ev = parityBit c n ev

/-- R181: with PEN = 0 no parity bit is sent or checked, and EP is ignored. -/
def Obligations.NoParity : Prop :=
  ∀ (c m : Byte), pen m = false →
    charBits c m = bitsOf c (nbits m) ∧ (∀ l, rxParOk m l = true)
      ∧ txFrameOf c m = txFrameOf c (m ^^^ 0x20#8)

/-- R183, R182 and R184: the fields of a frame, in order and number. -/
def Obligations.FrameShape : Prop :=
  ∀ (c m : Byte),
    (syncMode m = true →
      (txFrameOf c m).length = nbits m + parityBits m
        ∧ (∀ k, k < nbits m → (txFrameOf c m)[k]? = some (c.getLsbD k))
        ∧ (pen m = true → (txFrameOf c m)[nbits m]? = some (parityBit c (nbits m) (even m)))
        ∧ 5 ≤ (txFrameOf c m).length ∧ (txFrameOf c m).length ≤ 9)
      ∧ (syncMode m = false →
          (txFrameOf c m).length = 1 + nbits m + parityBits m + stops m
            ∧ (txFrameOf c m)[0]? = some false
            ∧ (∀ k, k < nbits m → (txFrameOf c m)[1 + k]? = some (c.getLsbD k))
            ∧ (pen m = true → (txFrameOf c m)[1 + nbits m]? = some (parityBit c (nbits m) (even m)))
            ∧ (∀ k, k < stops m → (txFrameOf c m)[1 + nbits m + parityBits m + k]? = some true)
            ∧ 7 ≤ (txFrameOf c m).length ∧ (txFrameOf c m).length ≤ 12)
      ∧ (m.getLsbD 7 = false → stops m = 1) ∧ (m.getLsbD 7 = true → stops m = 2)

/-- R78: which bits of the mode byte mean what, and the worked example 0x4D. The stop field is read in async mode only. -/
def Obligations.ModeFieldsDecode : Prop :=
  ∀ m : Byte,
    (syncMode m = true ↔ m.getLsbD 1 = false ∧ m.getLsbD 0 = false)
      ∧ (m.getLsbD 1 = false → factor m = 1)
      ∧ (m.getLsbD 1 = true → m.getLsbD 0 = false → factor m = 16)
      ∧ (m.getLsbD 1 = true → m.getLsbD 0 = true → factor m = 64)
      ∧ nbits m = 5 + (m.getLsbD 2).toNat + 2 * (m.getLsbD 3).toNat
      ∧ pen m = m.getLsbD 4
      ∧ even m = m.getLsbD 5
      ∧ (m.getLsbD 7 = false → stops m = 1) ∧ (m.getLsbD 7 = true → stops m = 2)
      ∧ (esd m = true ↔ syncMode m = true ∧ m.getLsbD 6 = true)
      ∧ (syncMode m = false → nsync m = 0)
      ∧ (syncMode m = true → m.getLsbD 7 = true → nsync m = 1)
      ∧ (syncMode m = true → m.getLsbD 7 = false → nsync m = 2)
      ∧ (m = 0x4D#8 → syncMode m = false ∧ factor m = 1 ∧ nbits m = 8 ∧ pen m = false ∧ stops m = 1)

/-! ### Status, outputs and the mask register -/

/-- R190 and R191: every bit of the status byte; the read changes nothing and emits nothing. -/
def Obligations.StatusRead : Prop :=
  (∀ seq, decode seq 0x5000#16 = some .statusR)
    ∧ ∀ s : State,
      (s.wasReset = false → exec .statusR s = .fault .unreset)
        ∧ (s.wasReset = true → ∃ t b, exec .statusR s = .next t ∧ t.value = some b
          ∧ b.getLsbD 0 = (if s.params.statusTxrdyGated then s.thre && s.cmd.getLsbD 0 && !s.pins.cts else s.thre)
          ∧ b.getLsbD 1 = s.rxrdy
          ∧ b.getLsbD 2 = (s.thre && !s.tx.busy)
          ∧ b.getLsbD 3 = s.pe ∧ b.getLsbD 4 = s.oe ∧ b.getLsbD 5 = s.fe
          ∧ b.getLsbD 6 = (if syncMode s.mode then s.syndet else false)
          ∧ b.getLsbD 7 = !s.pins.dsr
          ∧ t.events = [] ∧ { t with events := s.events, value := s.value } = s
          ∧ ∃ t', exec .statusR t = .next t' ∧ t'.value = t.value)

/-- R198, R199 and R84: the variant's mask register is written and read back as it is, and moves no pin and no status bit; the base
chip refuses both, and before the first reset the variant faults. -/
def Obligations.MaskRegister : Prop :=
  ∀ (b : Byte) (s : State),
    (∀ seq, decode seq (byteWord 0x2000#16 b) = some (.maskW b) ∧ decode seq 0x6000#16 = some .maskR)
      ∧ (s.params.hasMask = false →
          exec (.maskW b) s = .refused .reservedEncoding ∧ exec .maskR s = .refused .reservedEncoding)
      ∧ (s.params.hasMask = true → s.wasReset = false →
          exec (.maskW b) s = .fault .unreset ∧ exec .maskR s = .fault .unreset)
      ∧ (s.params.hasMask = true → s.wasReset = true → ∃ t, exec (.maskW b) s = .next t ∧ t.mask = b
          ∧ { t with mask := s.mask }.withOutputsOf s = s ∧ Emitted [] s t ∧ t.value = none
          ∧ (s.Settled → t.events = [] ∧ t.out = s.out) ∧ levels t = levels s ∧ statusByte t = statusByte s)
      ∧ (s.params.hasMask = true → s.wasReset = true → ∃ t, exec .maskR s = .next t
          ∧ t.value = some s.mask ∧ t.events = [] ∧ { t with events := s.events, value := s.value } = s)

/-- R200: the base chip refuses both mask words, and every other stimulus answers alike in both machines, RESET but for the mask
register that only the variant has. -/
def Obligations.VariantIsSuperset : Prop :=
  (∀ (b : Byte) (s : State), s.params.hasMask = false →
    exec (.maskW b) s = .refused .reservedEncoding ∧ exec .maskR s = .refused .reservedEncoding)
    ∧ (∀ (i : Instr) (h : Bool) (s : State), i.isMaskPort = false → i ≠ .reset →
        exec i { s with params := { s.params with hasMask := h } }
          = mapAnswer (fun t => { t with params := { t.params with hasMask := h } }) (exec i s))
    ∧ ∀ (h : Bool) (s : State), ∃ t t', exec .reset s = .next t
        ∧ exec .reset { s with params := { s.params with hasMask := h } } = .next t'
        ∧ { t' with params := t.params, mask := t.mask } = t

/-- Derived (60_exceptions section 2; 45_status_outputs section 3): what the mask register holds changes nothing that any other
stimulus does, the status byte and the output pins among it. -/
def Obligations.MaskGatesNothing : Prop :=
  ∀ (i : Instr) (k : Byte) (s : State), i.isMaskPort = false → i ≠ .reset →
    exec i { s with mask := k } = mapAnswer (fun t => { t with mask := k }) (exec i s)

/-- R195: the level of each output pin; none depends on RXD or DSR. -/
def Obligations.OutputPinLevels : Prop :=
  ∀ s : State,
    (levels s).get .dtr = !s.cmd.getLsbD 1
      ∧ (levels s).get .rts = !s.cmd.getLsbD 5
      ∧ (levels s).get .txd = (!s.cmd.getLsbD 3 && s.tx.line)
      ∧ (levels s).get .rxrdy = s.rxrdy
      ∧ (levels s).get .txrdy = (s.thre && s.cmd.getLsbD 0 && !s.pins.cts)
      ∧ (levels s).get .txempty = (s.thre && !s.tx.busy)
      ∧ (levels s).get .syndet = s.syndet
      ∧ ∀ a d, levels { s with pins := { s.pins with rxd := a, dsr := d } } = levels s

/-- R196: update_outputs is the rule's loop over the pins, for any set of forced pins; and the outputs after any stimulus are those
of an update that forces what the rule says the stimulus forces. -/
def Obligations.UpdateOutputsIsTheRuleLoop : Prop :=
  (∀ (forced : List OutPin) (s : State),
    updateOutputs forced s =
      emitLoop forced [.dtr, .rts, .txd, .rxrdy, .txrdy, .txempty, .syndet] { s with events := [], value := none })
    ∧ ∀ (i : Instr) (s t : State), s.wasReset = true → s.Settled → exec i s = .next t → Emitted i.forced s t

/-- R197, for every stimulus after a reset: the emissions are in the fixed pin order, each pin at most once, each with its level
at the end of the stimulus; a pin that is not emitted kept its level; the outputs end at their levels. -/
def Obligations.EveryStimulusSettlesOutputs : Prop :=
  ∀ (i : Instr) (s t : State), s.wasReset = true → s.Settled → exec i s = .next t →
    t.Settled
      ∧ (t.events.map Prod.fst).Sublist [.dtr, .rts, .txd, .rxrdy, .txrdy, .txempty, .syndet]
      ∧ (∀ e ∈ t.events, e.2 = (levels t).get e.1)
      ∧ ∀ p, (∀ lv, (p, lv) ∉ t.events) → (levels t).get p = (levels s).get p

/-! ### The invariant -/

/-- Derived (10_state section 6; log entries 1, 2, 3 and 5 for State.reset's own choices): State.reset meets the invariant. -/
def Obligations.ResetMeetsInvariant : Prop := State.reset.Inv

/-- Derived (10_state section 6): every step from a state that meets the invariant ends in one that meets it. -/
def Obligations.StepKeepsInvariant : Prop :=
  ∀ s t : State, s.Inv → step s = .next t → t.Inv

/-- Derived (10_state section 6): device reset establishes the invariant from any state at all. -/
def Obligations.DeviceResetEstablishesInvariant : Prop :=
  ∀ s t : State, exec .reset s = .next t → t.Inv
end

