-- ==== Sys2Proof/Laws/State.lean ====
section
/-! SUPPORT. For each named update of the state, one lemma per field: what the field holds after it. Later proofs rewrite with these
and unfold no update. -/

namespace Sys2Proof.Machine

/-! ### update_outputs (45_status_outputs R196) -/

@[simp] theorem updateOutputs_seq (forced : List OutPin) (s : State) : (updateOutputs forced s).seq = s.seq := rfl
@[simp] theorem updateOutputs_mode (forced : List OutPin) (s : State) : (updateOutputs forced s).mode = s.mode := rfl
@[simp] theorem updateOutputs_cmd (forced : List OutPin) (s : State) : (updateOutputs forced s).cmd = s.cmd := rfl
@[simp] theorem updateOutputs_sync1 (forced : List OutPin) (s : State) : (updateOutputs forced s).sync1 = s.sync1 := rfl
@[simp] theorem updateOutputs_sync2 (forced : List OutPin) (s : State) : (updateOutputs forced s).sync2 = s.sync2 := rfl
@[simp] theorem updateOutputs_thr (forced : List OutPin) (s : State) : (updateOutputs forced s).thr = s.thr := rfl
@[simp] theorem updateOutputs_thre (forced : List OutPin) (s : State) : (updateOutputs forced s).thre = s.thre := rfl
@[simp] theorem updateOutputs_tx (forced : List OutPin) (s : State) : (updateOutputs forced s).tx = s.tx := rfl
@[simp] theorem updateOutputs_txDiv (forced : List OutPin) (s : State) : (updateOutputs forced s).txDiv = s.txDiv := rfl
@[simp] theorem updateOutputs_rdr (forced : List OutPin) (s : State) : (updateOutputs forced s).rdr = s.rdr := rfl
@[simp] theorem updateOutputs_rxrdy (forced : List OutPin) (s : State) : (updateOutputs forced s).rxrdy = s.rxrdy := rfl
@[simp] theorem updateOutputs_rx (forced : List OutPin) (s : State) : (updateOutputs forced s).rx = s.rx := rfl
@[simp] theorem updateOutputs_hunt (forced : List OutPin) (s : State) : (updateOutputs forced s).hunt = s.hunt := rfl
@[simp] theorem updateOutputs_huntHist (forced : List OutPin) (s : State) : (updateOutputs forced s).huntHist = s.huntHist := rfl
@[simp] theorem updateOutputs_syndet (forced : List OutPin) (s : State) : (updateOutputs forced s).syndet = s.syndet := rfl
@[simp] theorem updateOutputs_pe (forced : List OutPin) (s : State) : (updateOutputs forced s).pe = s.pe := rfl
@[simp] theorem updateOutputs_oe (forced : List OutPin) (s : State) : (updateOutputs forced s).oe = s.oe := rfl
@[simp] theorem updateOutputs_fe (forced : List OutPin) (s : State) : (updateOutputs forced s).fe = s.fe := rfl
@[simp] theorem updateOutputs_pins (forced : List OutPin) (s : State) : (updateOutputs forced s).pins = s.pins := rfl
@[simp] theorem updateOutputs_out (forced : List OutPin) (s : State) : (updateOutputs forced s).out = levels s := rfl
@[simp] theorem updateOutputs_mask (forced : List OutPin) (s : State) : (updateOutputs forced s).mask = s.mask := rfl
@[simp] theorem updateOutputs_wasReset (forced : List OutPin) (s : State) : (updateOutputs forced s).wasReset = s.wasReset := rfl
@[simp] theorem updateOutputs_params (forced : List OutPin) (s : State) : (updateOutputs forced s).params = s.params := rfl
@[simp] theorem updateOutputs_pending (forced : List OutPin) (s : State) : (updateOutputs forced s).pending = s.pending := rfl
@[simp] theorem updateOutputs_events (forced : List OutPin) (s : State) : (updateOutputs forced s).events = emissions forced s := rfl
@[simp] theorem updateOutputs_value (forced : List OutPin) (s : State) : (updateOutputs forced s).value = none := rfl

/-! ### a silent stimulus -/

@[simp] theorem quiet_seq (s : State) : (quiet s).seq = s.seq := rfl
@[simp] theorem quiet_mode (s : State) : (quiet s).mode = s.mode := rfl
@[simp] theorem quiet_cmd (s : State) : (quiet s).cmd = s.cmd := rfl
@[simp] theorem quiet_sync1 (s : State) : (quiet s).sync1 = s.sync1 := rfl
@[simp] theorem quiet_sync2 (s : State) : (quiet s).sync2 = s.sync2 := rfl
@[simp] theorem quiet_thr (s : State) : (quiet s).thr = s.thr := rfl
@[simp] theorem quiet_thre (s : State) : (quiet s).thre = s.thre := rfl
@[simp] theorem quiet_tx (s : State) : (quiet s).tx = s.tx := rfl
@[simp] theorem quiet_txDiv (s : State) : (quiet s).txDiv = s.txDiv := rfl
@[simp] theorem quiet_rdr (s : State) : (quiet s).rdr = s.rdr := rfl
@[simp] theorem quiet_rxrdy (s : State) : (quiet s).rxrdy = s.rxrdy := rfl
@[simp] theorem quiet_rx (s : State) : (quiet s).rx = s.rx := rfl
@[simp] theorem quiet_hunt (s : State) : (quiet s).hunt = s.hunt := rfl
@[simp] theorem quiet_huntHist (s : State) : (quiet s).huntHist = s.huntHist := rfl
@[simp] theorem quiet_syndet (s : State) : (quiet s).syndet = s.syndet := rfl
@[simp] theorem quiet_pe (s : State) : (quiet s).pe = s.pe := rfl
@[simp] theorem quiet_oe (s : State) : (quiet s).oe = s.oe := rfl
@[simp] theorem quiet_fe (s : State) : (quiet s).fe = s.fe := rfl
@[simp] theorem quiet_pins (s : State) : (quiet s).pins = s.pins := rfl
@[simp] theorem quiet_out (s : State) : (quiet s).out = s.out := rfl
@[simp] theorem quiet_mask (s : State) : (quiet s).mask = s.mask := rfl
@[simp] theorem quiet_wasReset (s : State) : (quiet s).wasReset = s.wasReset := rfl
@[simp] theorem quiet_params (s : State) : (quiet s).params = s.params := rfl
@[simp] theorem quiet_pending (s : State) : (quiet s).pending = s.pending := rfl
@[simp] theorem quiet_events (s : State) : (quiet s).events = [] := rfl
@[simp] theorem quiet_value (s : State) : (quiet s).value = none := rfl

/-! ### the value of a read -/

@[simp] theorem returning_seq (b : Byte) (s : State) : (returning b s).seq = s.seq := rfl
@[simp] theorem returning_mode (b : Byte) (s : State) : (returning b s).mode = s.mode := rfl
@[simp] theorem returning_cmd (b : Byte) (s : State) : (returning b s).cmd = s.cmd := rfl
@[simp] theorem returning_sync1 (b : Byte) (s : State) : (returning b s).sync1 = s.sync1 := rfl
@[simp] theorem returning_sync2 (b : Byte) (s : State) : (returning b s).sync2 = s.sync2 := rfl
@[simp] theorem returning_thr (b : Byte) (s : State) : (returning b s).thr = s.thr := rfl
@[simp] theorem returning_thre (b : Byte) (s : State) : (returning b s).thre = s.thre := rfl
@[simp] theorem returning_tx (b : Byte) (s : State) : (returning b s).tx = s.tx := rfl
@[simp] theorem returning_txDiv (b : Byte) (s : State) : (returning b s).txDiv = s.txDiv := rfl
@[simp] theorem returning_rdr (b : Byte) (s : State) : (returning b s).rdr = s.rdr := rfl
@[simp] theorem returning_rxrdy (b : Byte) (s : State) : (returning b s).rxrdy = s.rxrdy := rfl
@[simp] theorem returning_rx (b : Byte) (s : State) : (returning b s).rx = s.rx := rfl
@[simp] theorem returning_hunt (b : Byte) (s : State) : (returning b s).hunt = s.hunt := rfl
@[simp] theorem returning_huntHist (b : Byte) (s : State) : (returning b s).huntHist = s.huntHist := rfl
@[simp] theorem returning_syndet (b : Byte) (s : State) : (returning b s).syndet = s.syndet := rfl
@[simp] theorem returning_pe (b : Byte) (s : State) : (returning b s).pe = s.pe := rfl
@[simp] theorem returning_oe (b : Byte) (s : State) : (returning b s).oe = s.oe := rfl
@[simp] theorem returning_fe (b : Byte) (s : State) : (returning b s).fe = s.fe := rfl
@[simp] theorem returning_pins (b : Byte) (s : State) : (returning b s).pins = s.pins := rfl
@[simp] theorem returning_out (b : Byte) (s : State) : (returning b s).out = s.out := rfl
@[simp] theorem returning_mask (b : Byte) (s : State) : (returning b s).mask = s.mask := rfl
@[simp] theorem returning_wasReset (b : Byte) (s : State) : (returning b s).wasReset = s.wasReset := rfl
@[simp] theorem returning_params (b : Byte) (s : State) : (returning b s).params = s.params := rfl
@[simp] theorem returning_pending (b : Byte) (s : State) : (returning b s).pending = s.pending := rfl
@[simp] theorem returning_events (b : Byte) (s : State) : (returning b s).events = s.events := rfl
@[simp] theorem returning_value (b : Byte) (s : State) : (returning b s).value = some b := rfl

/-! ### core_reset (70_reset_and_hazards R231) -/

@[simp] theorem coreReset_seq (s : State) : (coreReset s).seq = .expectMode := rfl
@[simp] theorem coreReset_mode (s : State) : (coreReset s).mode = 0x00#8 := rfl
@[simp] theorem coreReset_cmd (s : State) : (coreReset s).cmd = 0x00#8 := rfl
@[simp] theorem coreReset_sync1 (s : State) : (coreReset s).sync1 = 0x00#8 := rfl
@[simp] theorem coreReset_sync2 (s : State) : (coreReset s).sync2 = 0x00#8 := rfl
@[simp] theorem coreReset_thr (s : State) : (coreReset s).thr = 0x00#8 := rfl
@[simp] theorem coreReset_thre (s : State) : (coreReset s).thre = true := rfl
@[simp] theorem coreReset_tx (s : State) : (coreReset s).tx = .idle := rfl
@[simp] theorem coreReset_txDiv (s : State) : (coreReset s).txDiv = 0 := rfl
@[simp] theorem coreReset_rdr (s : State) : (coreReset s).rdr = 0x00#8 := rfl
@[simp] theorem coreReset_rxrdy (s : State) : (coreReset s).rxrdy = false := rfl
@[simp] theorem coreReset_rx (s : State) : (coreReset s).rx = .idle := rfl
@[simp] theorem coreReset_hunt (s : State) : (coreReset s).hunt = false := rfl
@[simp] theorem coreReset_huntHist (s : State) : (coreReset s).huntHist = [] := rfl
@[simp] theorem coreReset_syndet (s : State) : (coreReset s).syndet = false := rfl
@[simp] theorem coreReset_pe (s : State) : (coreReset s).pe = false := rfl
@[simp] theorem coreReset_oe (s : State) : (coreReset s).oe = false := rfl
@[simp] theorem coreReset_fe (s : State) : (coreReset s).fe = false := rfl
@[simp] theorem coreReset_pins (s : State) : (coreReset s).pins = s.pins := rfl
@[simp] theorem coreReset_out (s : State) : (coreReset s).out = s.out := rfl
@[simp] theorem coreReset_mask (s : State) : (coreReset s).mask = s.mask := rfl
@[simp] theorem coreReset_wasReset (s : State) : (coreReset s).wasReset = s.wasReset := rfl
@[simp] theorem coreReset_params (s : State) : (coreReset s).params = s.params := rfl
@[simp] theorem coreReset_pending (s : State) : (coreReset s).pending = s.pending := rfl
@[simp] theorem coreReset_events (s : State) : (coreReset s).events = s.events := rfl
@[simp] theorem coreReset_value (s : State) : (coreReset s).value = s.value := rfl

/-! ### the load of a frame (42_transmitter R133) -/

@[simp] theorem txLoad_seq (s : State) : (txLoad s).seq = s.seq := rfl
@[simp] theorem txLoad_mode (s : State) : (txLoad s).mode = s.mode := rfl
@[simp] theorem txLoad_cmd (s : State) : (txLoad s).cmd = s.cmd := rfl
@[simp] theorem txLoad_sync1 (s : State) : (txLoad s).sync1 = s.sync1 := rfl
@[simp] theorem txLoad_sync2 (s : State) : (txLoad s).sync2 = s.sync2 := rfl
@[simp] theorem txLoad_thr (s : State) : (txLoad s).thr = s.thr := rfl
@[simp] theorem txLoad_thre (s : State) : (txLoad s).thre = true := rfl
@[simp] theorem txLoad_tx (s : State) : (txLoad s).tx = { busy := true, frame := txFrameOf s.thr s.mode, pos := 1, line := (txFrameOf s.thr s.mode).headD true } := rfl
@[simp] theorem txLoad_txDiv (s : State) : (txLoad s).txDiv = s.txDiv := rfl
@[simp] theorem txLoad_rdr (s : State) : (txLoad s).rdr = s.rdr := rfl
@[simp] theorem txLoad_rxrdy (s : State) : (txLoad s).rxrdy = s.rxrdy := rfl
@[simp] theorem txLoad_rx (s : State) : (txLoad s).rx = s.rx := rfl
@[simp] theorem txLoad_hunt (s : State) : (txLoad s).hunt = s.hunt := rfl
@[simp] theorem txLoad_huntHist (s : State) : (txLoad s).huntHist = s.huntHist := rfl
@[simp] theorem txLoad_syndet (s : State) : (txLoad s).syndet = s.syndet := rfl
@[simp] theorem txLoad_pe (s : State) : (txLoad s).pe = s.pe := rfl
@[simp] theorem txLoad_oe (s : State) : (txLoad s).oe = s.oe := rfl
@[simp] theorem txLoad_fe (s : State) : (txLoad s).fe = s.fe := rfl
@[simp] theorem txLoad_pins (s : State) : (txLoad s).pins = s.pins := rfl
@[simp] theorem txLoad_out (s : State) : (txLoad s).out = s.out := rfl
@[simp] theorem txLoad_mask (s : State) : (txLoad s).mask = s.mask := rfl
@[simp] theorem txLoad_wasReset (s : State) : (txLoad s).wasReset = s.wasReset := rfl
@[simp] theorem txLoad_params (s : State) : (txLoad s).params = s.params := rfl
@[simp] theorem txLoad_pending (s : State) : (txLoad s).pending = s.pending := rfl
@[simp] theorem txLoad_events (s : State) : (txLoad s).events = s.events := rfl
@[simp] theorem txLoad_value (s : State) : (txLoad s).value = s.value := rfl

/-! ### rx_complete (43_receiver R156) -/

@[simp] theorem rxComplete_seq (data : Byte) (parOk fe : Bool) (s : State) : (rxComplete data parOk fe s).seq = s.seq := rfl
@[simp] theorem rxComplete_mode (data : Byte) (parOk fe : Bool) (s : State) : (rxComplete data parOk fe s).mode = s.mode := rfl
@[simp] theorem rxComplete_cmd (data : Byte) (parOk fe : Bool) (s : State) : (rxComplete data parOk fe s).cmd = s.cmd := rfl
@[simp] theorem rxComplete_sync1 (data : Byte) (parOk fe : Bool) (s : State) : (rxComplete data parOk fe s).sync1 = s.sync1 := rfl
@[simp] theorem rxComplete_sync2 (data : Byte) (parOk fe : Bool) (s : State) : (rxComplete data parOk fe s).sync2 = s.sync2 := rfl
@[simp] theorem rxComplete_thr (data : Byte) (parOk fe : Bool) (s : State) : (rxComplete data parOk fe s).thr = s.thr := rfl
@[simp] theorem rxComplete_thre (data : Byte) (parOk fe : Bool) (s : State) : (rxComplete data parOk fe s).thre = s.thre := rfl
@[simp] theorem rxComplete_tx (data : Byte) (parOk fe : Bool) (s : State) : (rxComplete data parOk fe s).tx = s.tx := rfl
@[simp] theorem rxComplete_txDiv (data : Byte) (parOk fe : Bool) (s : State) : (rxComplete data parOk fe s).txDiv = s.txDiv := rfl
@[simp] theorem rxComplete_rdr (data : Byte) (parOk fe : Bool) (s : State) : (rxComplete data parOk fe s).rdr = (if s.rxrdy then s.rdr else data) := rfl
@[simp] theorem rxComplete_rxrdy (data : Byte) (parOk fe : Bool) (s : State) : (rxComplete data parOk fe s).rxrdy = true := rfl
@[simp] theorem rxComplete_rx (data : Byte) (parOk fe : Bool) (s : State) : (rxComplete data parOk fe s).rx = s.rx := rfl
@[simp] theorem rxComplete_hunt (data : Byte) (parOk fe : Bool) (s : State) : (rxComplete data parOk fe s).hunt = s.hunt := rfl
@[simp] theorem rxComplete_huntHist (data : Byte) (parOk fe : Bool) (s : State) : (rxComplete data parOk fe s).huntHist = s.huntHist := rfl
@[simp] theorem rxComplete_syndet (data : Byte) (parOk fe : Bool) (s : State) : (rxComplete data parOk fe s).syndet = s.syndet := rfl
@[simp] theorem rxComplete_pe (data : Byte) (parOk fe : Bool) (s : State) : (rxComplete data parOk fe s).pe = (s.pe || !parOk) := rfl
@[simp] theorem rxComplete_oe (data : Byte) (parOk fe : Bool) (s : State) : (rxComplete data parOk fe s).oe = (s.oe || s.rxrdy) := rfl
@[simp] theorem rxComplete_fe (data : Byte) (parOk fe : Bool) (s : State) : (rxComplete data parOk fe s).fe = (s.fe || fe) := rfl
@[simp] theorem rxComplete_pins (data : Byte) (parOk fe : Bool) (s : State) : (rxComplete data parOk fe s).pins = s.pins := rfl
@[simp] theorem rxComplete_out (data : Byte) (parOk fe : Bool) (s : State) : (rxComplete data parOk fe s).out = s.out := rfl
@[simp] theorem rxComplete_mask (data : Byte) (parOk fe : Bool) (s : State) : (rxComplete data parOk fe s).mask = s.mask := rfl
@[simp] theorem rxComplete_wasReset (data : Byte) (parOk fe : Bool) (s : State) : (rxComplete data parOk fe s).wasReset = s.wasReset := rfl
@[simp] theorem rxComplete_params (data : Byte) (parOk fe : Bool) (s : State) : (rxComplete data parOk fe s).params = s.params := rfl
@[simp] theorem rxComplete_pending (data : Byte) (parOk fe : Bool) (s : State) : (rxComplete data parOk fe s).pending = s.pending := rfl
@[simp] theorem rxComplete_events (data : Byte) (parOk fe : Bool) (s : State) : (rxComplete data parOk fe s).events = s.events := rfl
@[simp] theorem rxComplete_value (data : Byte) (parOk fe : Bool) (s : State) : (rxComplete data parOk fe s).value = s.value := rfl

/-! ### sync declared (43_receiver R157, R160) -/

@[simp] theorem declareSync_seq (s : State) : (declareSync s).seq = s.seq := rfl
@[simp] theorem declareSync_mode (s : State) : (declareSync s).mode = s.mode := rfl
@[simp] theorem declareSync_cmd (s : State) : (declareSync s).cmd = s.cmd := rfl
@[simp] theorem declareSync_sync1 (s : State) : (declareSync s).sync1 = s.sync1 := rfl
@[simp] theorem declareSync_sync2 (s : State) : (declareSync s).sync2 = s.sync2 := rfl
@[simp] theorem declareSync_thr (s : State) : (declareSync s).thr = s.thr := rfl
@[simp] theorem declareSync_thre (s : State) : (declareSync s).thre = s.thre := rfl
@[simp] theorem declareSync_tx (s : State) : (declareSync s).tx = s.tx := rfl
@[simp] theorem declareSync_txDiv (s : State) : (declareSync s).txDiv = s.txDiv := rfl
@[simp] theorem declareSync_rdr (s : State) : (declareSync s).rdr = s.rdr := rfl
@[simp] theorem declareSync_rxrdy (s : State) : (declareSync s).rxrdy = s.rxrdy := rfl
@[simp] theorem declareSync_rx (s : State) : (declareSync s).rx = { s.rx with bits := [] } := rfl
@[simp] theorem declareSync_hunt (s : State) : (declareSync s).hunt = false := rfl
@[simp] theorem declareSync_huntHist (s : State) : (declareSync s).huntHist = [] := rfl
@[simp] theorem declareSync_syndet (s : State) : (declareSync s).syndet = true := rfl
@[simp] theorem declareSync_pe (s : State) : (declareSync s).pe = s.pe := rfl
@[simp] theorem declareSync_oe (s : State) : (declareSync s).oe = s.oe := rfl
@[simp] theorem declareSync_fe (s : State) : (declareSync s).fe = s.fe := rfl
@[simp] theorem declareSync_pins (s : State) : (declareSync s).pins = s.pins := rfl
@[simp] theorem declareSync_out (s : State) : (declareSync s).out = s.out := rfl
@[simp] theorem declareSync_mask (s : State) : (declareSync s).mask = s.mask := rfl
@[simp] theorem declareSync_wasReset (s : State) : (declareSync s).wasReset = s.wasReset := rfl
@[simp] theorem declareSync_params (s : State) : (declareSync s).params = s.params := rfl
@[simp] theorem declareSync_pending (s : State) : (declareSync s).pending = s.pending := rfl
@[simp] theorem declareSync_events (s : State) : (declareSync s).events = s.events := rfl
@[simp] theorem declareSync_value (s : State) : (declareSync s).value = s.value := rfl

/-! ### Levels read no output field -/

@[simp] theorem levels_updateOutputs (forced : List OutPin) (s : State) : levels (updateOutputs forced s) = levels s := rfl
@[simp] theorem levels_quiet (s : State) : levels (quiet s) = levels s := rfl
@[simp] theorem levels_returning (b : Byte) (s : State) : levels (returning b s) = levels s := rfl
@[simp] theorem levels_withOutputsOf (t s : State) : levels (t.withOutputsOf s) = levels t := rfl

/-- After update_outputs every pin stands at its level (R196). -/
theorem updateOutputs_settled (forced : List OutPin) (s : State) : (updateOutputs forced s).Settled := rfl

/-- A state and what update_outputs makes of it differ in the output side only. -/
@[simp] theorem updateOutputs_withOutputsOf (forced : List OutPin) (t s : State) :
    (updateOutputs forced t).withOutputsOf s = t.withOutputsOf s := rfl

end Sys2Proof.Machine
end

