-- ==== Sys2Proof/Laws/Ops.lean ====
section
/-! SUPPORT. For each shared operation, one lemma that says everything it can do. Proofs cite these and do not unfold the
operation. -/

namespace Sys2Proof.Machine

/-- A bus access answers `after`, or faults before the first reset (70_reset_and_hazards R232). -/
theorem busAccess_cases (s after : State) :
    (s.wasReset = true ∧ busAccess s after = .next after)
      ∨ (s.wasReset = false ∧ busAccess s after = .fault .unreset) := by
  cases h : s.wasReset <;> simp [busAccess, h]

theorem busAccess_next {s after t : State} :
    busAccess s after = .next t ↔ s.wasReset = true ∧ after = t := by
  cases h : s.wasReset <;> simp [busAccess, h]

/-- A pin write answers `after`, or, before the first reset, the latch alone (R232). -/
theorem pinWrite_next {latched after t : State} :
    pinWrite latched after = .next t ↔
      (latched.wasReset = true ∧ after = t) ∨ (latched.wasReset = false ∧ quiet latched = t) := by
  cases h : latched.wasReset <;> simp [pinWrite, h]

/-- The mask port answers only in the variant, after a reset (45_status_outputs R198 to R200). -/
theorem maskPort_next {s after t : State} :
    maskPort s after = .next t ↔ s.params.hasMask = true ∧ s.wasReset = true ∧ after = t := by
  cases h : s.params.hasMask <;> simp [maskPort, busAccess_next, h]

/-- What an emission of update_outputs is (R196): a forced or changed pin, at its level. -/
theorem mem_emissions {forced : List OutPin} {s : State} {p : OutPin} {lv : Bit} :
    (p, lv) ∈ emissions forced s ↔
      lv = (levels s).get p ∧ (p ∈ forced ∨ (levels s).get p ≠ s.out.get p) := by
  have hall : p ∈ OutPin.all := by cases p <;> decide
  constructor
  · intro h
    obtain ⟨q, hq, he⟩ := List.mem_map.1 h
    obtain ⟨rfl, rfl⟩ := Prod.mk.inj he
    have := (List.mem_filter.1 hq).2
    simpa using this
  · rintro ⟨rfl, h⟩
    exact List.mem_map.2 ⟨p, List.mem_filter.2 ⟨hall, by simpa using h⟩, rfl⟩

/-- The emissions come in the fixed pin order, each pin at most once (R197). -/
theorem emissions_order (forced : List OutPin) (s : State) :
    ((emissions forced s).map Prod.fst).Sublist OutPin.all := by
  have : (emissions forced s).map Prod.fst
      = OutPin.all.filter fun p => forced.contains p || (levels s).get p != s.out.get p := by
    simp [emissions, Function.comp_def]
  exact this ▸ List.filter_sublist

/-- From a state whose outputs stand at their levels, an update with nothing forced emits nothing (R196). -/
theorem emissions_settled {s : State} (h : s.Settled) : emissions [] s = [] := by
  have h' : s.out = levels s := h
  simp [emissions, h']

/-- When every pin is forced, all seven are emitted, in order (R196, R197). -/
theorem emissions_all (s : State) : emissions OutPin.all s = OutPin.all.map fun p => (p, (levels s).get p) := by
  have h : (OutPin.all.filter fun p => OutPin.all.contains p || (levels s).get p != s.out.get p) = OutPin.all :=
    List.filter_eq_self.2 fun p hp => by simp [hp]
  simp only [emissions, h]

/-- The levels after a core reset (10_state R41, last paragraph). -/
@[simp] theorem levels_coreReset (s : State) : levels (coreReset s) = .afterReset := by
  simp [levels, dtrLevel, rtsLevel, txdLevel, rxrdyLevel, txrdyLevel, txemptyLevel, syndetLevel, txEnabled, cmdDtr,
    cmdRts, cmdSbrk, cmdTxEn, TxShift.idle, OutLevels.afterReset]

/-- CMD_IR and RESET emit the seven reset levels (70_reset_and_hazards R230). -/
theorem emissions_coreReset (s : State) : emissions OutPin.all (coreReset s) = resetEmissions := by
  rw [emissions_all, levels_coreReset]
  rfl

/-- A bit tick changes only the transmitter shift state and the holding-register-empty flag (42_transmitter R133). -/
theorem txBitTick_frame (s : State) :
    { txBitTick s with tx := s.tx, thre := s.thre } = s := by
  unfold txBitTick
  split
  · rfl
  · split <;> rfl

/-- The three branches of a bit tick (R133). -/
theorem txBitTick_cases (s : State) :
    (∃ b, s.tx.busy = true ∧ s.tx.frame[s.tx.pos]? = some b
        ∧ txBitTick s = { s with tx := { s.tx with line := b, pos := s.tx.pos + 1 } })
      ∨ (¬(s.tx.busy = true ∧ s.tx.pos < s.tx.frame.length) ∧ s.thre = false ∧ txEnabled s = true
        ∧ txBitTick s = txLoad s)
      ∨ (¬(s.tx.busy = true ∧ s.tx.pos < s.tx.frame.length) ∧ ¬(s.thre = false ∧ txEnabled s = true)
        ∧ txBitTick s = { s with tx := .idle }) := by
  unfold txBitTick
  split
  · rename_i h
    exact .inl ⟨s.tx.frame[s.tx.pos], h.1, List.getElem?_eq_getElem h.2, by simp [List.getD, h.2]⟩
  · rename_i h
    split
    · rename_i h2
      exact .inr (.inl ⟨h, h2.1, h2.2, rfl⟩)
    · rename_i h2
      exact .inr (.inr ⟨h, h2, rfl⟩)

/-- The fields a receiver sample may write (20_memory R60). -/
abbrev RxFrame (s t : State) : Prop :=
  { t with rx := s.rx, hunt := s.hunt, huntHist := s.huntHist, syndet := s.syndet, rdr := s.rdr, rxrdy := s.rxrdy,
           pe := s.pe, oe := s.oe, fe := s.fe } = s

theorem rxAsyncSample_frame (v : Bit) (s : State) : RxFrame s (rxAsyncSample v s) := by
  unfold rxAsyncSample rxStartCentre rxFrameBit
  repeat' split
  all_goals rfl

theorem rxSyncSample_frame (v : Bit) (s : State) : RxFrame s (rxSyncSample v s) := by
  unfold rxSyncSample rxHuntSample
  repeat' split
  all_goals rfl

/-- A receiver sample writes receiver fields only (43_receiver R151, 20_memory R60). -/
theorem rxSample_frame (v : Bit) (s : State) : RxFrame s (rxSample v s) := by
  unfold rxSample
  split
  · exact rxSyncSample_frame v s
  · exact rxAsyncSample_frame v s

/-! ### The fields that a receiver sample, a bit tick and a counted edge leave alone -/

@[simp] theorem rxSample_seq (v : Bit) (s : State) : (rxSample v s).seq = s.seq := by
  have h := congrArg State.seq (rxSample_frame v s)
  exact h
@[simp] theorem rxSample_mode (v : Bit) (s : State) : (rxSample v s).mode = s.mode := by
  have h := congrArg State.mode (rxSample_frame v s)
  exact h
@[simp] theorem rxSample_cmd (v : Bit) (s : State) : (rxSample v s).cmd = s.cmd := by
  have h := congrArg State.cmd (rxSample_frame v s)
  exact h
@[simp] theorem rxSample_sync1 (v : Bit) (s : State) : (rxSample v s).sync1 = s.sync1 := by
  have h := congrArg State.sync1 (rxSample_frame v s)
  exact h
@[simp] theorem rxSample_sync2 (v : Bit) (s : State) : (rxSample v s).sync2 = s.sync2 := by
  have h := congrArg State.sync2 (rxSample_frame v s)
  exact h
@[simp] theorem rxSample_thr (v : Bit) (s : State) : (rxSample v s).thr = s.thr := by
  have h := congrArg State.thr (rxSample_frame v s)
  exact h
@[simp] theorem rxSample_thre (v : Bit) (s : State) : (rxSample v s).thre = s.thre := by
  have h := congrArg State.thre (rxSample_frame v s)
  exact h
@[simp] theorem rxSample_tx (v : Bit) (s : State) : (rxSample v s).tx = s.tx := by
  have h := congrArg State.tx (rxSample_frame v s)
  exact h
@[simp] theorem rxSample_txDiv (v : Bit) (s : State) : (rxSample v s).txDiv = s.txDiv := by
  have h := congrArg State.txDiv (rxSample_frame v s)
  exact h
@[simp] theorem rxSample_pins (v : Bit) (s : State) : (rxSample v s).pins = s.pins := by
  have h := congrArg State.pins (rxSample_frame v s)
  exact h
@[simp] theorem rxSample_out (v : Bit) (s : State) : (rxSample v s).out = s.out := by
  have h := congrArg State.out (rxSample_frame v s)
  exact h
@[simp] theorem rxSample_mask (v : Bit) (s : State) : (rxSample v s).mask = s.mask := by
  have h := congrArg State.mask (rxSample_frame v s)
  exact h
@[simp] theorem rxSample_wasReset (v : Bit) (s : State) : (rxSample v s).wasReset = s.wasReset := by
  have h := congrArg State.wasReset (rxSample_frame v s)
  exact h
@[simp] theorem rxSample_params (v : Bit) (s : State) : (rxSample v s).params = s.params := by
  have h := congrArg State.params (rxSample_frame v s)
  exact h
@[simp] theorem rxSample_pending (v : Bit) (s : State) : (rxSample v s).pending = s.pending := by
  have h := congrArg State.pending (rxSample_frame v s)
  exact h
@[simp] theorem rxSample_events (v : Bit) (s : State) : (rxSample v s).events = s.events := by
  have h := congrArg State.events (rxSample_frame v s)
  exact h
@[simp] theorem rxSample_value (v : Bit) (s : State) : (rxSample v s).value = s.value := by
  have h := congrArg State.value (rxSample_frame v s)
  exact h
@[simp] theorem txBitTick_seq (s : State) : (txBitTick s).seq = s.seq := by
  have h := congrArg State.seq (txBitTick_frame s)
  exact h
@[simp] theorem txBitTick_mode (s : State) : (txBitTick s).mode = s.mode := by
  have h := congrArg State.mode (txBitTick_frame s)
  exact h
@[simp] theorem txBitTick_cmd (s : State) : (txBitTick s).cmd = s.cmd := by
  have h := congrArg State.cmd (txBitTick_frame s)
  exact h
@[simp] theorem txBitTick_sync1 (s : State) : (txBitTick s).sync1 = s.sync1 := by
  have h := congrArg State.sync1 (txBitTick_frame s)
  exact h
@[simp] theorem txBitTick_sync2 (s : State) : (txBitTick s).sync2 = s.sync2 := by
  have h := congrArg State.sync2 (txBitTick_frame s)
  exact h
@[simp] theorem txBitTick_thr (s : State) : (txBitTick s).thr = s.thr := by
  have h := congrArg State.thr (txBitTick_frame s)
  exact h
@[simp] theorem txBitTick_rdr (s : State) : (txBitTick s).rdr = s.rdr := by
  have h := congrArg State.rdr (txBitTick_frame s)
  exact h
@[simp] theorem txBitTick_rxrdy (s : State) : (txBitTick s).rxrdy = s.rxrdy := by
  have h := congrArg State.rxrdy (txBitTick_frame s)
  exact h
@[simp] theorem txBitTick_rx (s : State) : (txBitTick s).rx = s.rx := by
  have h := congrArg State.rx (txBitTick_frame s)
  exact h
@[simp] theorem txBitTick_hunt (s : State) : (txBitTick s).hunt = s.hunt := by
  have h := congrArg State.hunt (txBitTick_frame s)
  exact h
@[simp] theorem txBitTick_huntHist (s : State) : (txBitTick s).huntHist = s.huntHist := by
  have h := congrArg State.huntHist (txBitTick_frame s)
  exact h
@[simp] theorem txBitTick_syndet (s : State) : (txBitTick s).syndet = s.syndet := by
  have h := congrArg State.syndet (txBitTick_frame s)
  exact h
@[simp] theorem txBitTick_pe (s : State) : (txBitTick s).pe = s.pe := by
  have h := congrArg State.pe (txBitTick_frame s)
  exact h
@[simp] theorem txBitTick_oe (s : State) : (txBitTick s).oe = s.oe := by
  have h := congrArg State.oe (txBitTick_frame s)
  exact h
@[simp] theorem txBitTick_fe (s : State) : (txBitTick s).fe = s.fe := by
  have h := congrArg State.fe (txBitTick_frame s)
  exact h
@[simp] theorem txBitTick_pins (s : State) : (txBitTick s).pins = s.pins := by
  have h := congrArg State.pins (txBitTick_frame s)
  exact h
@[simp] theorem txBitTick_out (s : State) : (txBitTick s).out = s.out := by
  have h := congrArg State.out (txBitTick_frame s)
  exact h
@[simp] theorem txBitTick_mask (s : State) : (txBitTick s).mask = s.mask := by
  have h := congrArg State.mask (txBitTick_frame s)
  exact h
@[simp] theorem txBitTick_wasReset (s : State) : (txBitTick s).wasReset = s.wasReset := by
  have h := congrArg State.wasReset (txBitTick_frame s)
  exact h
@[simp] theorem txBitTick_params (s : State) : (txBitTick s).params = s.params := by
  have h := congrArg State.params (txBitTick_frame s)
  exact h
@[simp] theorem txBitTick_pending (s : State) : (txBitTick s).pending = s.pending := by
  have h := congrArg State.pending (txBitTick_frame s)
  exact h
@[simp] theorem txBitTick_events (s : State) : (txBitTick s).events = s.events := by
  have h := congrArg State.events (txBitTick_frame s)
  exact h
@[simp] theorem txBitTick_value (s : State) : (txBitTick s).value = s.value := by
  have h := congrArg State.value (txBitTick_frame s)
  exact h
@[simp] theorem txBitTick_txDiv (s : State) : (txBitTick s).txDiv = s.txDiv := by
  have h := congrArg State.txDiv (txBitTick_frame s)
  exact h

/-- A counted edge of TxC changes only the divider, the transmitter shift state and the holding-register-empty flag (R132). -/
theorem txcFalling_frame (s : State) :
    { txcFalling s with txDiv := s.txDiv, tx := s.tx, thre := s.thre } = s := by
  unfold txcFalling txBitTick txLoad
  repeat' split
  all_goals rfl

@[simp] theorem txcFalling_seq (s : State) : (txcFalling s).seq = s.seq := by
  have h := congrArg State.seq (txcFalling_frame s)
  exact h
@[simp] theorem txcFalling_mode (s : State) : (txcFalling s).mode = s.mode := by
  have h := congrArg State.mode (txcFalling_frame s)
  exact h
@[simp] theorem txcFalling_cmd (s : State) : (txcFalling s).cmd = s.cmd := by
  have h := congrArg State.cmd (txcFalling_frame s)
  exact h
@[simp] theorem txcFalling_sync1 (s : State) : (txcFalling s).sync1 = s.sync1 := by
  have h := congrArg State.sync1 (txcFalling_frame s)
  exact h
@[simp] theorem txcFalling_sync2 (s : State) : (txcFalling s).sync2 = s.sync2 := by
  have h := congrArg State.sync2 (txcFalling_frame s)
  exact h
@[simp] theorem txcFalling_thr (s : State) : (txcFalling s).thr = s.thr := by
  have h := congrArg State.thr (txcFalling_frame s)
  exact h
@[simp] theorem txcFalling_rdr (s : State) : (txcFalling s).rdr = s.rdr := by
  have h := congrArg State.rdr (txcFalling_frame s)
  exact h
@[simp] theorem txcFalling_rxrdy (s : State) : (txcFalling s).rxrdy = s.rxrdy := by
  have h := congrArg State.rxrdy (txcFalling_frame s)
  exact h
@[simp] theorem txcFalling_rx (s : State) : (txcFalling s).rx = s.rx := by
  have h := congrArg State.rx (txcFalling_frame s)
  exact h
@[simp] theorem txcFalling_hunt (s : State) : (txcFalling s).hunt = s.hunt := by
  have h := congrArg State.hunt (txcFalling_frame s)
  exact h
@[simp] theorem txcFalling_huntHist (s : State) : (txcFalling s).huntHist = s.huntHist := by
  have h := congrArg State.huntHist (txcFalling_frame s)
  exact h
@[simp] theorem txcFalling_syndet (s : State) : (txcFalling s).syndet = s.syndet := by
  have h := congrArg State.syndet (txcFalling_frame s)
  exact h
@[simp] theorem txcFalling_pe (s : State) : (txcFalling s).pe = s.pe := by
  have h := congrArg State.pe (txcFalling_frame s)
  exact h
@[simp] theorem txcFalling_oe (s : State) : (txcFalling s).oe = s.oe := by
  have h := congrArg State.oe (txcFalling_frame s)
  exact h
@[simp] theorem txcFalling_fe (s : State) : (txcFalling s).fe = s.fe := by
  have h := congrArg State.fe (txcFalling_frame s)
  exact h
@[simp] theorem txcFalling_pins (s : State) : (txcFalling s).pins = s.pins := by
  have h := congrArg State.pins (txcFalling_frame s)
  exact h
@[simp] theorem txcFalling_out (s : State) : (txcFalling s).out = s.out := by
  have h := congrArg State.out (txcFalling_frame s)
  exact h
@[simp] theorem txcFalling_mask (s : State) : (txcFalling s).mask = s.mask := by
  have h := congrArg State.mask (txcFalling_frame s)
  exact h
@[simp] theorem txcFalling_wasReset (s : State) : (txcFalling s).wasReset = s.wasReset := by
  have h := congrArg State.wasReset (txcFalling_frame s)
  exact h
@[simp] theorem txcFalling_params (s : State) : (txcFalling s).params = s.params := by
  have h := congrArg State.params (txcFalling_frame s)
  exact h
@[simp] theorem txcFalling_pending (s : State) : (txcFalling s).pending = s.pending := by
  have h := congrArg State.pending (txcFalling_frame s)
  exact h
@[simp] theorem txcFalling_events (s : State) : (txcFalling s).events = s.events := by
  have h := congrArg State.events (txcFalling_frame s)
  exact h
@[simp] theorem txcFalling_value (s : State) : (txcFalling s).value = s.value := by
  have h := congrArg State.value (txcFalling_frame s)
  exact h

/-! ### What a command byte does to each field (41_command_handshake R110, R112 to R114) -/

/-- A command byte writes the command, the receiver assembly state, the sync detector and the sticky errors only. -/
theorem applyCommand_frame (b : Byte) (s : State) :
    { applyCommand b s with cmd := s.cmd, rx := s.rx, huntHist := s.huntHist, pe := s.pe, oe := s.oe, fe := s.fe,
                            hunt := s.hunt, syndet := s.syndet } = s := by
  unfold applyCommand applyEnterHunt applyErrorReset applyRxDisable
  repeat' split
  all_goals rfl

@[simp] theorem applyCommand_cmd (b : Byte) (s : State) : (applyCommand b s).cmd = b := by
  unfold applyCommand applyEnterHunt applyErrorReset applyRxDisable
  repeat' split
  all_goals rfl
@[simp] theorem applyCommand_seq (b : Byte) (s : State) : (applyCommand b s).seq = s.seq := by
  have h := congrArg State.seq (applyCommand_frame b s)
  exact h
@[simp] theorem applyCommand_mode (b : Byte) (s : State) : (applyCommand b s).mode = s.mode := by
  have h := congrArg State.mode (applyCommand_frame b s)
  exact h
@[simp] theorem applyCommand_sync1 (b : Byte) (s : State) : (applyCommand b s).sync1 = s.sync1 := by
  have h := congrArg State.sync1 (applyCommand_frame b s)
  exact h
@[simp] theorem applyCommand_sync2 (b : Byte) (s : State) : (applyCommand b s).sync2 = s.sync2 := by
  have h := congrArg State.sync2 (applyCommand_frame b s)
  exact h
@[simp] theorem applyCommand_thr (b : Byte) (s : State) : (applyCommand b s).thr = s.thr := by
  have h := congrArg State.thr (applyCommand_frame b s)
  exact h
@[simp] theorem applyCommand_thre (b : Byte) (s : State) : (applyCommand b s).thre = s.thre := by
  have h := congrArg State.thre (applyCommand_frame b s)
  exact h
@[simp] theorem applyCommand_tx (b : Byte) (s : State) : (applyCommand b s).tx = s.tx := by
  have h := congrArg State.tx (applyCommand_frame b s)
  exact h
@[simp] theorem applyCommand_txDiv (b : Byte) (s : State) : (applyCommand b s).txDiv = s.txDiv := by
  have h := congrArg State.txDiv (applyCommand_frame b s)
  exact h
@[simp] theorem applyCommand_rdr (b : Byte) (s : State) : (applyCommand b s).rdr = s.rdr := by
  have h := congrArg State.rdr (applyCommand_frame b s)
  exact h
@[simp] theorem applyCommand_rxrdy (b : Byte) (s : State) : (applyCommand b s).rxrdy = s.rxrdy := by
  have h := congrArg State.rxrdy (applyCommand_frame b s)
  exact h
@[simp] theorem applyCommand_pins (b : Byte) (s : State) : (applyCommand b s).pins = s.pins := by
  have h := congrArg State.pins (applyCommand_frame b s)
  exact h
@[simp] theorem applyCommand_out (b : Byte) (s : State) : (applyCommand b s).out = s.out := by
  have h := congrArg State.out (applyCommand_frame b s)
  exact h
@[simp] theorem applyCommand_mask (b : Byte) (s : State) : (applyCommand b s).mask = s.mask := by
  have h := congrArg State.mask (applyCommand_frame b s)
  exact h
@[simp] theorem applyCommand_wasReset (b : Byte) (s : State) : (applyCommand b s).wasReset = s.wasReset := by
  have h := congrArg State.wasReset (applyCommand_frame b s)
  exact h
@[simp] theorem applyCommand_params (b : Byte) (s : State) : (applyCommand b s).params = s.params := by
  have h := congrArg State.params (applyCommand_frame b s)
  exact h
@[simp] theorem applyCommand_pending (b : Byte) (s : State) : (applyCommand b s).pending = s.pending := by
  have h := congrArg State.pending (applyCommand_frame b s)
  exact h
@[simp] theorem applyCommand_events (b : Byte) (s : State) : (applyCommand b s).events = s.events := by
  have h := congrArg State.events (applyCommand_frame b s)
  exact h
@[simp] theorem applyCommand_value (b : Byte) (s : State) : (applyCommand b s).value = s.value := by
  have h := congrArg State.value (applyCommand_frame b s)
  exact h
theorem applyCommand_pe (b : Byte) (s : State) :
    (applyCommand b s).pe = (if cmdEr b then false else s.pe) := by
  have hm : (applyErrorReset b (applyRxDisable b { s with cmd := b })).mode = s.mode := by
    unfold applyErrorReset applyRxDisable
    repeat' split
    all_goals rfl
  unfold applyCommand applyEnterHunt
  rw [hm]
  unfold applyErrorReset applyRxDisable
  cases cmdRxE b <;> cases cmdEr b <;> cases cmdEh b <;> cases syncMode s.mode <;> rfl
theorem applyCommand_oe (b : Byte) (s : State) :
    (applyCommand b s).oe = (if cmdEr b then false else s.oe) := by
  have hm : (applyErrorReset b (applyRxDisable b { s with cmd := b })).mode = s.mode := by
    unfold applyErrorReset applyRxDisable
    repeat' split
    all_goals rfl
  unfold applyCommand applyEnterHunt
  rw [hm]
  unfold applyErrorReset applyRxDisable
  cases cmdRxE b <;> cases cmdEr b <;> cases cmdEh b <;> cases syncMode s.mode <;> rfl
theorem applyCommand_fe (b : Byte) (s : State) :
    (applyCommand b s).fe = (if cmdEr b then false else s.fe) := by
  have hm : (applyErrorReset b (applyRxDisable b { s with cmd := b })).mode = s.mode := by
    unfold applyErrorReset applyRxDisable
    repeat' split
    all_goals rfl
  unfold applyCommand applyEnterHunt
  rw [hm]
  unfold applyErrorReset applyRxDisable
  cases cmdRxE b <;> cases cmdEr b <;> cases cmdEh b <;> cases syncMode s.mode <;> rfl
theorem applyCommand_hunt (b : Byte) (s : State) :
    (applyCommand b s).hunt = (if cmdEh b = true ∧ syncMode s.mode = true then true else s.hunt) := by
  have hm : (applyErrorReset b (applyRxDisable b { s with cmd := b })).mode = s.mode := by
    unfold applyErrorReset applyRxDisable
    repeat' split
    all_goals rfl
  unfold applyCommand applyEnterHunt
  rw [hm]
  unfold applyErrorReset applyRxDisable
  cases cmdRxE b <;> cases cmdEr b <;> cases cmdEh b <;> cases syncMode s.mode <;> rfl
theorem applyCommand_syndet (b : Byte) (s : State) :
    (applyCommand b s).syndet = (if cmdEh b = true ∧ syncMode s.mode = true then false else s.syndet) := by
  have hm : (applyErrorReset b (applyRxDisable b { s with cmd := b })).mode = s.mode := by
    unfold applyErrorReset applyRxDisable
    repeat' split
    all_goals rfl
  unfold applyCommand applyEnterHunt
  rw [hm]
  unfold applyErrorReset applyRxDisable
  cases cmdRxE b <;> cases cmdEr b <;> cases cmdEh b <;> cases syncMode s.mode <;> rfl
theorem applyCommand_huntHist (b : Byte) (s : State) :
    (applyCommand b s).huntHist = (if cmdRxE b = false ∨ (cmdEh b = true ∧ syncMode s.mode = true) then [] else s.huntHist) := by
  have hm : (applyErrorReset b (applyRxDisable b { s with cmd := b })).mode = s.mode := by
    unfold applyErrorReset applyRxDisable
    repeat' split
    all_goals rfl
  unfold applyCommand applyEnterHunt
  rw [hm]
  unfold applyErrorReset applyRxDisable
  cases cmdRxE b <;> cases cmdEr b <;> cases cmdEh b <;> cases syncMode s.mode <;> rfl
theorem applyCommand_rx (b : Byte) (s : State) :
    (applyCommand b s).rx = (if cmdRxE b = false then .idle
      else if cmdEh b = true ∧ syncMode s.mode = true then { s.rx with bits := [] } else s.rx) := by
  have hm : (applyErrorReset b (applyRxDisable b { s with cmd := b })).mode = s.mode := by
    unfold applyErrorReset applyRxDisable
    repeat' split
    all_goals rfl
  unfold applyCommand applyEnterHunt
  rw [hm]
  unfold applyErrorReset applyRxDisable
  cases cmdRxE b <;> cases cmdEr b <;> cases cmdEh b <;> cases syncMode s.mode <;> rfl

/-- What a fetch can answer: nothing, or the oldest word, taken (20_memory R58). -/
theorem fetch_cases (s : State) :
    (s.pending = [] ∧ fetch s = none)
      ∨ ∃ w rest, s.pending = w :: rest ∧ fetch s = some (w, { s with pending := rest }) := by
  unfold fetch
  split <;> simp_all

/-- What a step can answer with a next state: an idle step, or the decoded stimulus on the state without its word. -/
theorem step_next {s t : State} (h : step s = .next t) :
    (s.pending = [] ∧ t = quiet s)
      ∨ ∃ w rest i, s.pending = w :: rest ∧ decode s.seq w = some i
          ∧ exec i { s with pending := rest } = .next t := by
  unfold step at h
  rcases fetch_cases s with ⟨hp, hf⟩ | ⟨w, rest, hp, hf⟩
  · rw [hf] at h
    exact .inl ⟨hp, by simpa using h.symm⟩
  · rw [hf] at h
    dsimp only at h
    cases hd : decode s.seq w with
    | none => rw [hd] at h; simp at h
    | some i => rw [hd] at h; exact .inr ⟨w, rest, i, hp, hd, h⟩

end Sys2Proof.Machine
end

