-- ==== Sys2Proof/Laws/Codec.lean ====
section
/-! SUPPORT. The small lemmas of the codec and of the configuration bytes. -/

namespace Sys2Proof.Machine

@[simp] theorem bitsOf_length (c : Byte) (n : Nat) : (bitsOf c n).length = n := by simp [bitsOf]

theorem bitsOf_getElem? (c : Byte) {n k : Nat} (h : k < n) : (bitsOf c n)[k]? = some (c.getLsbD k) := by
  simp [bitsOf, h]

@[simp] theorem charBits_length (c m : Byte) : (charBits c m).length = nbits m + parityBits m := by
  cases h : pen m <;> simp [charBits, parityBits, h]

@[simp] theorem valueOf_nil : valueOf [] = 0 := rfl
@[simp] theorem valueOf_cons (b : Bit) (l : List Bit) : valueOf (b :: l) = b.toNat + 2 * valueOf l := rfl

theorem valueOf_lt (l : List Bit) : valueOf l < 2 ^ l.length := by
  induction l with
  | nil => simp
  | cons b l ih => cases b <;> simp [pow_succ] <;> omega

theorem nbits_bounds (m : Byte) : 5 ≤ nbits m ∧ nbits m ≤ 8 := by
  have := (modeLengthField m).isLt
  unfold nbits
  omega

theorem factor_cases (m : Byte) : factor m = 1 ∨ factor m = 16 ∨ factor m = 64 := by
  unfold factor
  repeat' split
  all_goals simp

theorem factor_pos (m : Byte) : 0 < factor m := by
  rcases factor_cases m with h | h | h <;> omega

theorem stops_cases (m : Byte) : stops m = 1 ∨ stops m = 2 := by
  unfold stops
  split <;> simp

theorem parityBits_le (m : Byte) : parityBits m ≤ 1 := by
  unfold parityBits
  cases pen m <;> simp

/-- In sync mode every counted edge is a bit tick (30_encoding R78). -/
theorem factor_of_syncMode {m : Byte} (h : syncMode m = true) : factor m = 1 := by
  have h' : modeFactorField m = 0b00#2 := by simpa [syncMode] using h
  simp [factor, h']

/-- The length of a frame (44_codec R183). -/
theorem txFrameOf_length (c m : Byte) :
    (txFrameOf c m).length =
      if syncMode m then nbits m + parityBits m else 1 + nbits m + parityBits m + stops m := by
  unfold txFrameOf
  split
  · simp
  · simp
    omega

theorem txFrameOf_bounds (c m : Byte) : 5 ≤ (txFrameOf c m).length ∧ (txFrameOf c m).length ≤ 12 := by
  have h1 := nbits_bounds m
  have h2 := parityBits_le m
  have h3 := stops_cases m
  rw [txFrameOf_length]
  split <;> omega

/-- The length of the sync pattern (43_receiver R158). -/
theorem syncPattern_length (s : State) :
    (syncPattern s).length = nsync s.mode * (nbits s.mode + parityBits s.mode) := by
  unfold syncPattern
  split
  · simp [*]
  · split
    · simp [*]; omega
    · have : nsync s.mode = 0 := by
        unfold nsync at *
        repeat' split at *
        all_goals simp_all
      simp [this]

theorem lastBits_length_le (k : Nat) (l : List Bit) : (lastBits k l).length ≤ k := by
  simp [lastBits]; omega

end Sys2Proof.Machine
end

