-- ==== Sys2Proof/Laws/PerInstr.lean ====
section
/-! SUPPORT. Statements about every stimulus as syntax, one lemma per constructor. Family `TableRow`: the access word of a
well-formed stimulus matches its row of spec/opcode_table.json, and the row's condition holds in some sequencer state. -/

namespace Sys2Proof.Laws.TableRow

/-- The word lies in the row: the fixed bits are as the row fixes them, and the row is admitted in some sequencer state. -/
def Statement (i : Instr) : Prop :=
  i.wf = true → encode i &&& rowMask i = rowMatch i ∧ ∃ seq, i.admittedIn seq = true

/-- Under the mask 0xFF00 a class 00 word keeps its class, port and zero fields and loses the data byte. -/
theorem busWriteWord_masked (port : BitVec 2) (b : Byte) :
    busWriteWord port b &&& 0xFF00#16 = busWriteWord port 0#8 := by
  decide +revert

/-- Under the mask 0xFF40 the control word keeps bit 6 of its byte. -/
theorem commandWord_masked (b : Byte) :
    busWriteWord 0b01#2 b &&& 0xFF40#16 = if b.getLsbD 6 then 0x1040#16 else 0x1000#16 := by
  decide +revert

/-- Under the mask 0xFFFE a class 10 word keeps all but the level. -/
theorem pinWord_masked (pin : BitVec 3) (v : Bit) : pinWord pin v &&& 0xFFFE#16 = pinWord pin false := by
  decide +revert

theorem dataW (b : Byte) : Statement (.dataW b) := fun _ => ⟨busWriteWord_masked _ b, .expectMode, rfl⟩
theorem modeW (b : Byte) : Statement (.modeW b) := fun _ => ⟨busWriteWord_masked _ b, .expectMode, rfl⟩
theorem sync1W (b : Byte) : Statement (.sync1W b) := fun _ => ⟨busWriteWord_masked _ b, .expectSync1, rfl⟩
theorem sync2W (b : Byte) : Statement (.sync2W b) := fun _ => ⟨busWriteWord_masked _ b, .expectSync2, rfl⟩
theorem cmdW (b : Byte) : Statement (.cmdW b) := fun h =>
  ⟨(commandWord_masked b).trans (if_neg (by simpa [Instr.wf] using h)), .expectCommand, rfl⟩
theorem cmdIr (b : Byte) : Statement (.cmdIr b) := fun h =>
  ⟨(commandWord_masked b).trans (if_pos (by simpa [Instr.wf] using h)), .expectCommand, rfl⟩
theorem maskW (b : Byte) : Statement (.maskW b) := fun _ => ⟨busWriteWord_masked _ b, .expectMode, rfl⟩
theorem dataR : Statement .dataR := fun _ => ⟨by decide, .expectMode, rfl⟩
theorem statusR : Statement .statusR := fun _ => ⟨by decide, .expectMode, rfl⟩
theorem maskR : Statement .maskR := fun _ => ⟨by decide, .expectMode, rfl⟩
theorem txrdyR : Statement .txrdyR := fun _ => ⟨by decide, .expectMode, rfl⟩
theorem pinRxd (v : Bit) : Statement (.pinRxd v) := fun _ => ⟨pinWord_masked _ v, .expectMode, rfl⟩
theorem pinCts (v : Bit) : Statement (.pinCts v) := fun _ => ⟨pinWord_masked _ v, .expectMode, rfl⟩
theorem pinDsr (v : Bit) : Statement (.pinDsr v) := fun _ => ⟨pinWord_masked _ v, .expectMode, rfl⟩
theorem pinTxc (v : Bit) : Statement (.pinTxc v) := fun _ => ⟨pinWord_masked _ v, .expectMode, rfl⟩
theorem pinRxc (v : Bit) : Statement (.pinRxc v) := fun _ => ⟨pinWord_masked _ v, .expectMode, rfl⟩
theorem pinSyn (v : Bit) : Statement (.pinSyn v) := fun _ => ⟨pinWord_masked _ v, .expectMode, rfl⟩
theorem reset : Statement .reset := fun _ => ⟨by decide, .expectMode, rfl⟩

end Sys2Proof.Laws.TableRow
end

