-- ==== Sys2Proof/Laws/Words.lean ====
section
/-! SUPPORT. An access word is the concatenation of its fields (30_encoding R71 to R73). -/

namespace Sys2Proof

/-- Two neighbouring fields read together are one field. -/
theorem extract_append {n : Nat} (w : BitVec n) (k a b : Nat) :
    w.extractLsb' (k + b) a ++ w.extractLsb' k b = w.extractLsb' k (a + b) := by
  apply BitVec.eq_of_getLsbD_eq
  intro i hi
  rw [BitVec.getLsbD_append]
  split
  · simp [*]
  · rename_i h
    have : i - b < a := by omega
    simp [this, hi, show k + b + (i - b) = k + i from by omega]

/-- A whole word is one field. -/
theorem extract_all {n : Nat} (w : BitVec n) : w.extractLsb' 0 n = w := by
  apply BitVec.eq_of_getLsbD_eq
  intro i hi
  simp [hi]

/-- The fields of a bus word (R71). -/
theorem word_eq_busFields (w : Word) : wordClass w ++ wordPort w ++ wordZero w ++ wordData w = w := by
  have h1 := extract_append w 12 2 2
  have h2 := extract_append w 8 4 4
  have h3 := extract_append w 0 8 8
  unfold wordClass wordPort wordZero wordData
  rw [h1, h2, h3]
  exact extract_all w

/-- The fields of a pin word (R72). -/
theorem word_eq_pinFields (w : Word) :
    wordClass w ++ wordPin w ++ wordPinZero w ++ BitVec.ofBool (wordLevel w) = w := by
  have h0 : BitVec.ofBool (wordLevel w) = w.extractLsb' 0 1 := by
    apply BitVec.eq_of_getLsbD_eq
    intro i hi
    have : i = 0 := by omega
    subst this
    simp [wordLevel]
  have h1 := extract_append w 11 2 3
  have h2 := extract_append w 1 5 10
  have h3 := extract_append w 0 15 1
  unfold wordClass wordPin wordPinZero
  rw [h0, h1, h2, h3]
  exact extract_all w

/-- The fields of a reset word (R73). -/
theorem word_eq_resetFields (w : Word) : wordClass w ++ wordResetZero w = w := by
  unfold wordClass wordResetZero
  exact (extract_append w 0 2 14).trans (extract_all w)

end Sys2Proof
end

