-- ==== Sys2Proof/Tests/Slice0.lean ====
section
/-! SUPPORT. Tests. Every expected result is an example or a table entry of spec/, or a hand calculation from one; each test says
which. The witnesses at the end show, for every statement with hypotheses, concrete values that meet them. -/

namespace Sys2Proof.Tests

open Sys2Proof.Machine

/-! ### Small states -/

/-- A state at rest: outputs at their levels, nothing emitted or returned yet. -/
def settle (s : State) : State := { s with out := levels s, events := [], value := none }

/-- After reset, mode `m` and command `c`, with CTS asserted and RXD at mark. -/
def running (m c : Byte) : State :=
  settle { State.reset with seq := .expectCommand, mode := m, cmd := c, pins := { State.reset.pins with cts := false } }

/-- `s` with these words to come. -/
def fed (ws : List Word) (s : State) : State := { s with pending := ws }

/-- The base chip. -/
def base (s : State) : State := { s with params := { s.params with hasMask := false } }

/-- Before the first reset. -/
def unreset (s : State) : State := { s with wasReset := false }

/-- The state of an answer, the emissions and the value. -/
def after (a : Answer) : Option State :=
  match a with
  | .next t => some t
  | .fault _ => none
  | .refused _ => none

def emitted (a : Answer) : Option (List Emission) := (after a).map State.events
def returned (a : Answer) : Option (Option Byte) := (after a).map State.value

/-! ### WellFormed: an ill-formed term for each check -/

theorem test_wf_refuses_cmdW_with_ir : (Instr.cmdW 0x40#8).wf = false := by decide
theorem test_wf_refuses_cmdIr_without_ir : (Instr.cmdIr 0xBF#8).wf = false := by decide
theorem test_wf_accepts_both_commands : (Instr.cmdW 0xBF#8).wf = true ∧ (Instr.cmdIr 0x40#8).wf = true := by decide
theorem test_admitted_refuses_modeW : (Instr.modeW 0#8).admittedIn .expectCommand = false := by decide
theorem test_admitted_refuses_sync1W : (Instr.sync1W 0#8).admittedIn .expectMode = false := by decide
theorem test_admitted_refuses_sync2W : (Instr.sync2W 0#8).admittedIn .expectSync1 = false := by decide
theorem test_admitted_refuses_cmdW : (Instr.cmdW 0#8).admittedIn .expectSync2 = false := by decide
theorem test_admitted_refuses_cmdIr : (Instr.cmdIr 0x40#8).admittedIn .expectMode = false := by decide

/-! ### Decode: one word of every row, written out by 30_encoding R71 to R73 and R75

Bus word: class, port, zero, data. Pin word: class, pin, zero, level. -/

theorem test_decode_dataW : decode .expectMode 0b00_00_0000_01000001#16 = some (.dataW 0b01000001#8) := by decide
theorem test_decode_modeW : decode .expectMode 0b00_01_0000_01001101#16 = some (.modeW 0b01001101#8) := by decide
theorem test_decode_sync1W : decode .expectSync1 0b00_01_0000_00010110#16 = some (.sync1W 0b00010110#8) := by decide
theorem test_decode_sync2W : decode .expectSync2 0b00_01_0000_10010110#16 = some (.sync2W 0b10010110#8) := by decide
theorem test_decode_cmdW : decode .expectCommand 0b00_01_0000_00110111#16 = some (.cmdW 0b00110111#8) := by decide
theorem test_decode_cmdIr : decode .expectCommand 0b00_01_0000_01000000#16 = some (.cmdIr 0b01000000#8) := by decide
theorem test_decode_maskW : decode .expectMode 0b00_10_0000_10100101#16 = some (.maskW 0b10100101#8) := by decide
theorem test_decode_dataR : decode .expectMode 0b01_00_0000_00000000#16 = some .dataR := by decide
theorem test_decode_statusR : decode .expectMode 0b01_01_0000_00000000#16 = some .statusR := by decide
theorem test_decode_maskR : decode .expectMode 0b01_10_0000_00000000#16 = some .maskR := by decide
theorem test_decode_txrdyR : decode .expectMode 0b01_11_0000_00000000#16 = some .txrdyR := by decide
theorem test_decode_pinRxd : decode .expectMode 0b10_000_0000000000_1#16 = some (.pinRxd true) := by decide
theorem test_decode_pinCts : decode .expectMode 0b10_001_0000000000_0#16 = some (.pinCts false) := by decide
theorem test_decode_pinDsr : decode .expectMode 0b10_010_0000000000_1#16 = some (.pinDsr true) := by decide
theorem test_decode_pinTxc : decode .expectMode 0b10_011_0000000000_0#16 = some (.pinTxc false) := by decide
theorem test_decode_pinRxc : decode .expectMode 0b10_100_0000000000_1#16 = some (.pinRxc true) := by decide
theorem test_decode_pinSyn : decode .expectMode 0b10_101_0000000000_1#16 = some (.pinSyn true) := by decide
theorem test_decode_reset : decode .expectMode 0b11_00000000000000#16 = some .reset := by decide

/-- One word of each reserved kind (R74). -/
theorem test_decode_reserved :
    decode .expectMode 0b00_11_0000_00000000#16 = none ∧ decode .expectMode 0b00_00_0001_00000000#16 = none
      ∧ decode .expectMode 0b01_01_1000_00000000#16 = none ∧ decode .expectMode 0b01_00_0000_00000001#16 = none
      ∧ decode .expectMode 0b10_110_0000000000_0#16 = none ∧ decode .expectMode 0b10_111_0000000000_1#16 = none
      ∧ decode .expectMode 0b10_000_0000000001_0#16 = none ∧ decode .expectMode 0b11_00000000000001#16 = none := by
  decide

/-- A word on the host's numbering: RESET, and a control word in ExpectMode. -/
theorem test_decodeTableWord :
    decodeTableWord 16 0xC000 = some .reset ∧ decodeTableWord 16 0x104D = some (.modeW 0x4D#8)
      ∧ decodeTableWord 16 0x3000 = none := by decide

/-- The very next step runs the word that withFetchWord places (the MASK_W example of 45_status_outputs R198). -/
theorem test_withFetchWord : (after (step (State.reset.withFetchWord 16 0x2003))).map State.mask = some 0x03#8 := by decide

/-! ### One step of each stimulus -/

/-- 42_transmitter R131, the example. -/
theorem test_dataW_emits :
    emitted (exec (.dataW 0x41#8) (running 0x4D#8 0x01#8)) = some [(.txrdy, false), (.txempty, false)] := by decide
/-- R131: a write to a full THR is ignored. -/
theorem test_dataW_full_is_ignored :
    (after (exec (.dataW 0x42#8) { running 0x4D#8 0x01#8 with thr := 0x41#8, thre := false })).map State.thr
      = some 0x41#8 := by decide
/-- 40_sequencer R101, the examples. -/
theorem test_modeW_sync :
    (after (exec (.modeW 0x8C#8) State.reset)).map (fun t => (t.seq, t.hunt)) = some (.expectSync1, true) := by decide
theorem test_modeW_async :
    (after (exec (.modeW 0x4E#8) State.reset)).map (fun t => (t.seq, t.hunt)) = some (.expectCommand, false) := by decide
/-- R102, the examples: single sync and double sync. -/
theorem test_sync1W_single :
    (after (exec (.sync1W 0x16#8) (running 0x8C#8 0x00#8))).map (fun t => (t.seq, t.sync1))
      = some (.expectCommand, 0x16#8) := by decide
theorem test_sync1W_double :
    (after (exec (.sync1W 0x16#8) (running 0x0C#8 0x00#8))).map State.seq = some .expectSync2 := by decide
/-- R103, the example. -/
theorem test_sync2W :
    (after (exec (.sync2W 0x16#8) (running 0x0C#8 0x00#8))).map (fun t => (t.seq, t.sync2))
      = some (.expectCommand, 0x16#8) := by decide
/-- 41_command_handshake R110, the example. -/
theorem test_cmdW_emits :
    emitted (exec (.cmdW 0x27#8) (running 0x4D#8 0x00#8)) = some [(.dtr, false), (.rts, false), (.txrdy, true)] := by
  decide
/-- R112: ER clears the three errors and leaves rx-ready. -/
theorem test_cmdW_error_reset :
    (after (exec (.cmdW 0x15#8) { running 0x4D#8 0x05#8 with pe := true, oe := true, fe := true, rxrdy := true })).map
      (fun t => (t.pe, t.oe, t.fe, t.rxrdy)) = some (false, false, false, true) := by decide
/-- R111, the example, and 45_status_outputs R199, the example: the mask survives. -/
theorem test_cmdIr :
    (after (exec (.cmdIr 0x40#8) { running 0x4D#8 0x05#8 with rxrdy := true, fe := true, mask := 0xA5#8 })).map
      (fun t => (t.seq, t.rxrdy, t.fe, t.mask)) = some (.expectMode, false, false, 0xA5#8) := by decide
/-- R230, the seven reset emissions, also of CMD_IR. -/
theorem test_cmdIr_emits :
    emitted (exec (.cmdIr 0x7F#8) (running 0x4D#8 0x27#8))
      = some [(.dtr, true), (.rts, true), (.txd, true), (.rxrdy, false), (.txrdy, false), (.txempty, true),
          (.syndet, false)] := by decide
/-- 45_status_outputs R198: stored in the variant, refused in the base chip. -/
theorem test_maskW : (after (exec (.maskW 0x03#8) (running 0x4D#8 0x00#8))).map State.mask = some 0x03#8 := by decide
theorem test_maskW_base : exec (.maskW 0x03#8) (base State.reset) = .refused .reservedEncoding := rfl
/-- 43_receiver R161, the example. -/
theorem test_dataR :
    (after (exec .dataR (settle { running 0x4D#8 0x04#8 with rdr := 0x35#8, rxrdy := true }))).map
      (fun t => (t.value, t.events)) = some (some 0x35#8, [(.rxrdy, false)]) := by decide
/-- R161: with the parameter false, rx-ready stays. -/
theorem test_dataR_keeps_ready :
    (after (exec .dataR { running 0x4D#8 0x04#8 with
        rxrdy := true, params := { State.reset.params with rxrdyClearOnRead := false } })).map State.rxrdy
      = some true := by decide
/-- 45_status_outputs R190, the example: 0x04 after reset, 0x05 when bit 0 is not gated. -/
theorem test_statusR_reset : returned (exec .statusR State.reset) = some (some 0x04#8) := by decide
theorem test_statusR_ungated :
    returned (exec .statusR { State.reset with params := { State.reset.params with statusTxrdyGated := false } })
      = some (some 0x05#8) := by decide
/-- R199: reads back what was written; before the first reset a bus access faults (70_reset_and_hazards R232). -/
theorem test_maskR : returned (exec .maskR { State.reset with mask := 0xA5#8 }) = some (some 0xA5#8) := by decide
theorem test_maskR_unreset : exec .maskR (unreset State.reset) = .fault .unreset := rfl
/-- 42_transmitter R139, the example, and the enabled case by R137. -/
theorem test_txrdyR_reset : returned (exec .txrdyR State.reset) = some (some 0x00#8) := by decide
theorem test_txrdyR_enabled : returned (exec .txrdyR (running 0x4D#8 0x01#8)) = some (some 0x01#8) := by decide
/-- 43_receiver R150, the example. -/
theorem test_pinRxd : emitted (exec (.pinRxd false) (running 0x4D#8 0x04#8)) = some [] := by decide
/-- 41_command_handshake R118, the example. -/
theorem test_pinCts_up : emitted (exec (.pinCts true) (running 0x4D#8 0x01#8)) = some [(.txrdy, false)] := by decide
theorem test_pinCts_down :
    emitted (exec (.pinCts false) (settle { running 0x4D#8 0x01#8 with pins := State.reset.pins }))
      = some [(.txrdy, true)] := by decide
/-- R119, the example: DSR at 0 reads as status bit 7, beside tx-empty. -/
theorem test_pinDsr :
    (after (exec (.pinDsr false) State.reset)).map statusByte = some 0x84#8 := by decide
/-- 42_transmitter R132, the example: at ×16 the 16th falling edge is the first bit tick, here a load (R133). -/
theorem test_pinTxc_load :
    (after (exec (.pinTxc false) { running 0x4E#8 0x01#8 with
        thr := 0x41#8, thre := false, txDiv := 15,
        pins := { State.reset.pins with cts := false, txc := true } })).map
      (fun t => (t.tx.busy, t.tx.pos, t.tx.line, t.thre, t.txDiv)) = some (true, 1, false, true, 0) := by decide
/-- R132: a rising edge counts nothing. -/
theorem test_pinTxc_rising :
    (after (exec (.pinTxc true) { running 0x4E#8 0x01#8 with txDiv := 15 })).map
      (fun t => (t.tx.busy, t.txDiv, t.pins.txc)) = some (false, 15, true) := by decide
/-- 43_receiver R151, the example: async ×1, a sample at 0 is the start bit. -/
theorem test_pinRxc_start :
    (after (exec (.pinRxc true) { running 0x4D#8 0x04#8 with
        pins := { State.reset.pins with cts := false, rxd := false } })).map State.rx
      = some { state := .frame, wait := 1, bits := [] } := by decide
/-- 60_exceptions R213, the example: a bad stop bit with rx-ready set gives OE and FE, and status 0x36. -/
theorem test_pinRxc_overrun_and_framing :
    (after (exec (.pinRxc true) { running 0x4D#8 0x04#8 with
        rxrdy := true, rdr := 0x41#8
        rx := { state := .frame, wait := 1, bits := [true, false, true, false, true, false, true, false] }
        pins := { State.reset.pins with cts := false, rxd := false } })).map
      (fun t => (statusByte t, t.rdr)) = some (0x36#8, 0x41#8) := by decide
/-- 43_receiver R160, the example. -/
theorem test_pinSyn :
    (after (exec (.pinSyn true) { running 0xCC#8 0x04#8 with sync1 := 0x16#8, hunt := true })).map
      (fun t => (t.events, statusByte t)) = some ([(.syndet, true)], 0x44#8) := by decide
/-- R160: ignored while RxE = 0. -/
theorem test_pinSyn_disabled :
    (after (exec (.pinSyn true) { running 0xCC#8 0x00#8 with hunt := true })).map State.hunt = some true := by decide
/-- 70_reset_and_hazards R230, the example. -/
theorem test_reset :
    (after (exec .reset (unreset (running 0x4D#8 0x27#8)))).map (fun t => (t.events, t.wasReset))
      = some ([(.dtr, true), (.rts, true), (.txd, true), (.rxrdy, false), (.txrdy, false), (.txempty, true),
          (.syndet, false)], true) := by decide

/-! ### The codec: the tables at the end of 44_codec -/

theorem test_frame_8n1 :
    txFrameOf 0x41#8 0x4D#8 = [false, true, false, false, false, false, false, true, false, true] := by decide
theorem test_frame_7e1 :
    txFrameOf 0x35#8 0x7A#8 = [false, true, false, true, false, true, true, false, false, true] := by decide
theorem test_frame_5n2 : txFrameOf 0x1F#8 0xC1#8 = [false, true, true, true, true, true, true, true] := by decide
theorem test_frame_sync : txFrameOf 0x16#8 0x8C#8 = [false, true, true, false, true, false, false, false] := by decide
theorem test_parity_table :
    parityBit 0x41#8 8 true = false ∧ parityBit 0xFF#8 8 true = false ∧ parityBit 0x41#8 8 false = true
      ∧ parityBit 0xFF#8 8 false = true ∧ parityBit 0x7F#8 7 true = true ∧ parityBit 0x80#8 7 true = false
      ∧ parityBit 0x7F#8 5 true = true ∧ parityBit 0x00#8 5 false = true := by decide

/-! ### Witnesses: the hypotheses of each statement, met together -/

/-- A frame of 10 bits in flight, at its second bit, TxC high. -/
def shifting : State :=
  settle { running 0x4D#8 0x01#8 with
    tx := { busy := true, frame := txFrameOf 0x41#8 0x4D#8, pos := 1, line := false }
    pins := { State.reset.pins with cts := false, txc := true } }

/-- The same frame at its last bit, the next byte waiting. -/
def frameDone : State :=
  settle { shifting with tx := { shifting.tx with pos := 10, line := true }, thr := 0x42#8, thre := false }

/-- A byte waiting, the transmitter idle, TxC high. -/
def waiting : State :=
  settle { running 0x4D#8 0x01#8 with
    thr := 0x41#8, thre := false, pins := { State.reset.pins with cts := false, txc := true } }

/-- Async reception of mode `m` with this assembly state. -/
def receiving (m : Byte) (rx : RxAssembly) : State := settle { running m 0x04#8 with rx := rx }

/-- Single-character internal sync (mode 0x8C, sync 0x16), one bit short of a match, the last bit on the line. -/
def hunting : State :=
  settle { running 0x8C#8 0x04#8 with
    sync1 := 0x16#8, hunt := true, huntHist := [false, true, true, false, true, false, false]
    pins := { State.reset.pins with rxd := false } }

/-- External sync (mode 0xCC), hunting. -/
def huntingExternal : State := settle { running 0xCC#8 0x04#8 with sync1 := 0x16#8, hunt := true }

theorem witness_NotationWordsDecode : (0xBF#8).getLsbD 6 = false ∧ (0x40#8).getLsbD 6 = true := by decide
theorem witness_DecodeOfEncode :
    ((Instr.cmdIr 0x40#8).wf = true ∧ (Instr.cmdIr 0x40#8).admittedIn .expectCommand = true)
      ∧ (Instr.cmdW 0xBF#8).wf = true ∧ (Instr.cmdW 0xBF#8).admittedIn .expectCommand = true := by decide
theorem witness_EncodeOfDecode : decode .expectSync2 0x10FF#16 = some (.sync2W 0xFF#8) := by decide
theorem witness_DecodeMatchesTableRows :
    decode .expectMode 0xA801#16 = some (.pinSyn true) ∧ Instr.reset.admittedIn .expectMode = true := by decide
/-- One word of each kind that R74 lists, a port-10 word in each machine, and words that are not reserved. -/
theorem witness_ReservedWordsAreRefused :
    (fed [0x3000#16] State.reset).pending = 0x3000#16 :: [] ∧ reservedWord true 0x3000#16 = true
      ∧ reservedWord true 0x0100#16 = true ∧ reservedWord true 0x4F00#16 = true ∧ reservedWord true 0x4001#16 = true
      ∧ reservedWord true 0xB000#16 = true ∧ reservedWord true 0x8002#16 = true ∧ reservedWord true 0xC001#16 = true
      ∧ reservedWord false 0x2000#16 = true ∧ reservedWord false 0x6000#16 = true
      ∧ reservedWord true 0x2000#16 = false ∧ reservedWord true 0x6000#16 = false ∧ reservedWord true 0x7000#16 = false
      ∧ reservedWord false 0xFFFF#16 = true ∧ reservedWord false 0xC000#16 = false := by decide
theorem witness_StepRunsTheDecodedStimulus :
    (fed [0x104D#16, 0x1027#16] State.reset).pending = 0x104D#16 :: [0x1027#16]
      ∧ decode (fed [0x104D#16, 0x1027#16] State.reset).seq 0x104D#16 = some (.modeW 0x4D#8)
      ∧ State.reset.pending = [] := by decide
theorem witness_StepTakesOneStimulus : ∃ t, step (fed [0x5000#16] State.reset) = .next t ∧ t.pending = [] :=
  ⟨_, rfl, rfl⟩
theorem witness_EveryAdmittedStimulusCompletes :
    State.reset.wasReset = true ∧ ((Instr.maskW 0x03#8).isMaskPort = true → State.reset.params.hasMask = true) := by decide
theorem witness_BeforeFirstReset :
    (unreset State.reset).wasReset = false
      ∧ Instr.txrdyR.isBusAccess = true ∧ (Instr.txrdyR.isMaskPort = true → State.reset.params.hasMask = true)
      ∧ (Instr.pinSyn true).isPinWrite = true ∧ Instr.reset = .reset := by decide
theorem witness_InternalReset : State.reset.wasReset = true ∧ (0x7F#8).getLsbD 6 = true := by decide
theorem witness_ResetStateFromPowerOn :
    (unreset State.reset).PowerOn ∧ (unreset State.reset).params = Config.params ∧ (unreset State.reset).pending = [] := by
  decide
theorem witness_ModeWrite : State.reset.wasReset = true ∧ State.reset.seq = .expectMode := by decide
theorem witness_SyncWrites :
    (running 0x0C#8 0x00#8).wasReset = true ∧ nsync (running 0x0C#8 0x00#8).mode = 2
      ∧ nsync (running 0x8C#8 0x00#8).mode = 1 := by decide
/-- One state for each sequencer state, and both kinds of command. -/
theorem witness_ControlWriteDispatch :
    (fed [controlWord 0x4D#8] (unreset State.reset)).wasReset = false
      ∧ (fed [controlWord 0x4D#8] State.reset).pending = controlWord 0x4D#8 :: []
      ∧ (fed [controlWord 0x4D#8] State.reset).seq = .expectMode
      ∧ { running 0x0C#8 0#8 with seq := .expectSync1 }.seq = .expectSync1
      ∧ { running 0x0C#8 0#8 with seq := .expectSync2 }.seq = .expectSync2
      ∧ (running 0x4D#8 0#8).seq = .expectCommand ∧ (0x40#8).getLsbD 6 = true ∧ (0xBF#8).getLsbD 6 = false := by decide
theorem witness_SequencerTransitions :
    ∃ t, (fed [controlWord 0x0C#8] State.reset).pending = controlWord 0x0C#8 :: []
      ∧ step (fed [controlWord 0x0C#8] State.reset) = .next t ∧ t.seq = .expectSync1 := ⟨_, rfl, rfl, rfl⟩
theorem witness_SafeResetIdiom :
    (fed [controlWord 0x00#8, controlWord 0x00#8, controlWord 0x00#8, controlWord 0x40#8] (running 0x4D#8 0x27#8)).wasReset
        = true
      ∧ (fed [controlWord 0x00#8, controlWord 0x00#8, controlWord 0x00#8, controlWord 0x40#8] (running 0x4D#8 0x27#8)).pending
        = controlWord 0x00#8 :: controlWord 0x00#8 :: controlWord 0x00#8 :: controlWord 0x40#8 :: [] := by decide
/-- Bytes with RxE, ER and EH at each value, in sync and in async mode. -/
theorem witness_CommandWrite :
    (running 0x8C#8 0x04#8).wasReset = true ∧ (0x94#8).getLsbD 6 = false ∧ (0x94#8).getLsbD 2 = true
      ∧ (0x94#8).getLsbD 4 = true ∧ (0x94#8).getLsbD 7 = true ∧ syncMode (running 0x8C#8 0x04#8).mode = true
      ∧ (0x00#8).getLsbD 6 = false ∧ (0x00#8).getLsbD 2 = false ∧ (0x00#8).getLsbD 4 = false
      ∧ ¬((0x94#8).getLsbD 7 = true ∧ syncMode (running 0x4D#8 0x04#8).mode = true) := by decide
theorem witness_StoredActionBitsAreDead : (0x90#8) &&& 0x6F#8 = 0x00#8 := by decide
theorem witness_CommandEmitsHandshakeOutputs :
    (∃ t, exec (.cmdW 0x27#8) (running 0x4D#8 0#8) = .next t)
      ∧ (∃ t, exec (.cmdIr 0x40#8) (running 0x4D#8 0#8) = .next t)
      ∧ (running 0x4D#8 0#8).Settled ∧ (Instr.pinCts true).writesCommand = false
      ∧ ∃ t, exec (.pinCts true) (running 0x4D#8 0#8) = .next t :=
  ⟨⟨_, rfl⟩, ⟨_, rfl⟩, by decide, by decide, ⟨_, rfl⟩⟩
/-- A break that begins, the same break ended, and a clock edge. -/
theorem witness_SendBreak :
    shifting.wasReset = true ∧ shifting.Settled
      ∧ (∃ t, exec (.cmdW 0x09#8) shifting = .next t ∧ t.cmd.getLsbD 3 = true)
      ∧ (∃ t, exec (.cmdW 0x01#8) shifting = .next t ∧ t.cmd.getLsbD 3 = false)
      ∧ ∃ t, exec (.pinTxc false) shifting = .next t :=
  ⟨by decide, by decide, ⟨_, rfl, by decide⟩, ⟨_, rfl, by decide⟩, ⟨_, rfl⟩⟩
theorem witness_CtsWrite :
    (unreset State.reset).wasReset = false ∧ (running 0x4D#8 0x01#8).wasReset = true ∧ (running 0x4D#8 0x01#8).Settled := by
  decide
theorem witness_QuietPinWrites :
    (unreset State.reset).wasReset = false ∧ (running 0x4D#8 0x04#8).wasReset = true ∧ (running 0x4D#8 0x04#8).Settled := by
  decide
theorem witness_DataWrite :
    (unreset State.reset).wasReset = false ∧ waiting.wasReset = true ∧ waiting.thre = false
      ∧ (running 0x4D#8 0x01#8).thre = true := by decide
/-- The first and the last bit still to drive; a load from idle and a load at a frame's end; idle with CTS, TxEN or THR missing. -/
theorem witness_BitTick :
    (shifting.tx.busy = true ∧ shifting.tx.pos < shifting.tx.frame.length)
      ∧ ({ shifting.tx with pos := 9 }.pos < shifting.tx.frame.length)
      ∧ (¬(waiting.tx.busy = true ∧ waiting.tx.pos < waiting.tx.frame.length) ∧ waiting.thre = false
          ∧ waiting.cmd.getLsbD 0 = true ∧ waiting.pins.cts = false)
      ∧ (¬(frameDone.tx.busy = true ∧ frameDone.tx.pos < frameDone.tx.frame.length) ∧ frameDone.thre = false
          ∧ frameDone.cmd.getLsbD 0 = true ∧ frameDone.pins.cts = false)
      ∧ (¬(State.reset.tx.busy = true ∧ State.reset.tx.pos < State.reset.tx.frame.length)
          ∧ ¬(State.reset.thre = false ∧ State.reset.cmd.getLsbD 0 = true ∧ State.reset.pins.cts = false)) := by decide
/-- No edge; an edge that only counts, at 14 of 16; the edge that is a bit tick, at 15 of 16. -/
theorem witness_TxClockWrite :
    waiting.wasReset = true ∧ (unreset waiting).wasReset = false
      ∧ ¬(waiting.pins.txc = true ∧ true = false)
      ∧ waiting.pins.txc = true ∧ 14 + 1 < factor 0x4E#8 ∧ factor 0x4E#8 ≤ 15 + 1
      ∧ factor waiting.mode ≤ waiting.txDiv + 1 := by decide
theorem witness_ClocksTouchDisjointState :
    shifting.Settled ∧ (∃ t, exec (.pinTxc false) shifting = .next t) ∧ ∃ t, exec (.pinRxc true) shifting = .next t :=
  ⟨by decide, ⟨_, rfl⟩, ⟨_, rfl⟩⟩
/-- A bit tick, at x1; an edge that only counts, at 14 of 16; and one that abandons the frame. -/
theorem witness_FrameInFlightCompletes :
    (shifting.tx.busy = true ∧ shifting.tx.pos < shifting.tx.frame.length)
      ∧ (∃ t, exec (.pinTxc false) shifting = .next t ∧ shifting.wasReset = true ∧ shifting.pins.txc = true
          ∧ factor shifting.mode ≤ shifting.txDiv + 1)
      ∧ (∃ t, exec (.pinTxc false) { shifting with mode := 0x4E#8, txDiv := 14 } = .next t
          ∧ ¬(factor 0x4E#8 ≤ 14 + 1))
      ∧ ∃ t, exec .reset shifting = .next t :=
  ⟨by decide, ⟨_, rfl, by decide⟩, ⟨_, rfl, by decide⟩, ⟨_, rfl⟩⟩
/-- From idle and from a frame's last bit; k at its two ends, 1 and 10. -/
theorem witness_FrameIsClockedOut :
    (waiting.wasReset = true ∧ waiting.thre = false ∧ waiting.cmd.getLsbD 0 = true ∧ waiting.pins.cts = false
        ∧ ¬(waiting.tx.busy = true ∧ waiting.tx.pos < waiting.tx.frame.length) ∧ waiting.txDiv = 0)
      ∧ (¬(frameDone.tx.busy = true ∧ frameDone.tx.pos < frameDone.tx.frame.length) ∧ frameDone.txDiv = 0)
      ∧ 1 ≤ 1 ∧ 10 ≤ (txFrameOf waiting.thr waiting.mode).length := by decide
theorem witness_BackToBack :
    frameDone.wasReset = true ∧ frameDone.tx.busy = true ∧ frameDone.tx.pos = frameDone.tx.frame.length
      ∧ frameDone.thre = false ∧ frameDone.cmd.getLsbD 0 = true ∧ frameDone.pins.cts = false ∧ frameDone.pins.txc = true
      ∧ factor frameDone.mode ≤ frameDone.txDiv + 1 := by decide
theorem witness_TxrdyRead :
    (unreset State.reset).wasReset = false ∧ (running 0x4D#8 0x01#8).wasReset = true ∧ (running 0x4D#8 0x01#8).Settled := by
  decide
/-- No edge with RxE, an edge without RxE, and a sample in each mode. -/
theorem witness_RxClockWrite :
    (unreset State.reset).wasReset = false ∧ hunting.wasReset = true
      ∧ ¬(hunting.pins.rxc = false ∧ false = true ∧ hunting.cmd.getLsbD 2 = true)
      ∧ ¬(State.reset.pins.rxc = false ∧ true = true ∧ State.reset.cmd.getLsbD 2 = true)
      ∧ (hunting.pins.rxc = false ∧ hunting.cmd.getLsbD 2 = true ∧ syncMode hunting.mode = true)
      ∧ (running 0x4D#8 0x04#8).pins.rxc = false ∧ (running 0x4D#8 0x04#8).cmd.getLsbD 2 = true
      ∧ syncMode (running 0x4D#8 0x04#8).mode = false := by decide
/-- Idle at ×1 and at ×64; a wait of 2, the least that only counts down; the centre of the start bit; a bit centre. -/
theorem witness_AsyncStartDetection :
    ((receiving 0x4D#8 .idle).rx.state = .idle ∧ factor (receiving 0x4D#8 .idle).mode = 1)
      ∧ factor (receiving 0x4F#8 .idle).mode ≠ 1
      ∧ ((receiving 0x4E#8 { state := .start, wait := 2, bits := [] }).rx.state ≠ .idle
          ∧ 2 ≤ (receiving 0x4E#8 { state := .start, wait := 2, bits := [] }).rx.wait)
      ∧ ((receiving 0x4E#8 { state := .start, wait := 1, bits := [] }).rx.state = .start
          ∧ (receiving 0x4E#8 { state := .start, wait := 1, bits := [] }).rx.wait = 1)
      ∧ (receiving 0x4E#8 { state := .frame, wait := 1, bits := [] }).rx.state = .frame := by decide
/-- The last data bit and the stop bit, at the shortest character (5N) and at the longest (8 bits with parity). -/
theorem witness_AsyncFrameBit :
    (syncMode 0x41#8 = false ∧ [true, true, true, true].length ≠ nbits 0x41#8 + parityBits 0x41#8
        ∧ [true, true, true, true, true].length = nbits 0x41#8 + parityBits 0x41#8)
      ∧ syncMode 0x7D#8 = false ∧ (List.replicate 8 true).length ≠ nbits 0x7D#8 + parityBits 0x7D#8
      ∧ (List.replicate 9 true).length = nbits 0x7D#8 + parityBits 0x7D#8 := by decide
/-- Hunting under ESD, one bit before a match and at a match; in alignment, one bit before the end and at the end. -/
theorem witness_SyncSample :
    (huntingExternal.hunt = true ∧ esd huntingExternal.mode = true)
      ∧ (hunting.hunt = true ∧ esd hunting.mode = false
          ∧ lastBits (syncPattern hunting).length (hunting.huntHist ++ [false]) = syncPattern hunting
          ∧ lastBits (syncPattern hunting).length (hunting.huntHist ++ [true]) ≠ syncPattern hunting)
      ∧ (running 0x8C#8 0x04#8).hunt = false
      ∧ (List.replicate 6 true).length + 1 ≠ nbits 0x8C#8 + parityBits 0x8C#8
      ∧ (List.replicate 7 true).length + 1 = nbits 0x8C#8 + parityBits 0x8C#8 := by decide
/-- Single and double sync; the shortest pattern (5 bits) and the longest (18). -/
theorem witness_SyncPatternShape :
    nsync 0x80#8 = 1 ∧ nsync 0x1C#8 = 2
      ∧ (syncPattern (running 0x80#8 0#8)).length = 5 ∧ (syncPattern (running 0x1C#8 0#8)).length = 18 := by decide
theorem witness_HuntFindsPattern :
    syncMode { hunting with huntHist := [] }.mode = true ∧ esd { hunting with huntHist := [] }.mode = false
      ∧ { hunting with huntHist := [] }.hunt = true ∧ { hunting with huntHist := [] }.huntHist = []
      ∧ 7 < (syncPattern hunting).length := by decide
theorem witness_ExternalSync :
    (unreset huntingExternal).wasReset = false ∧ huntingExternal.wasReset = true
      ∧ (huntingExternal.pins.syn = false ∧ true = true ∧ esd huntingExternal.mode = true ∧ huntingExternal.hunt = true
          ∧ huntingExternal.cmd.getLsbD 2 = true)
      ∧ ¬(hunting.pins.syn = false ∧ true = true ∧ esd hunting.mode = true ∧ hunting.hunt = true
          ∧ hunting.cmd.getLsbD 2 = true) := by decide
theorem witness_DataRead : (unreset State.reset).wasReset = false ∧ State.reset.wasReset = true := by decide
/-- Both ways to set sync detect, and one way to clear it. -/
theorem witness_SyndetLifecycle :
    (hunting.wasReset = true ∧ hunting.syndet = false ∧ ∃ t, exec (.pinRxc true) hunting = .next t ∧ t.syndet = true)
      ∧ (huntingExternal.syndet = false ∧ ∃ t, exec (.pinSyn true) huntingExternal = .next t ∧ t.syndet = true)
      ∧ { hunting with syndet := true }.syndet = true
      ∧ ∃ t, exec (.cmdW 0x84#8) { hunting with syndet := true } = .next t ∧ t.syndet = false :=
  ⟨⟨by decide, by decide, ⟨_, rfl, by decide⟩⟩, ⟨by decide, ⟨_, rfl, by decide⟩⟩, by decide, ⟨_, rfl, by decide⟩⟩
/-- The stop bit of an async character and the last bit of a sync one, into an empty register; and a clearing read. -/
theorem witness_RxReadyLifecycle :
    (∃ t, exec (.pinRxc true) (receiving 0x41#8 { state := .frame, wait := 1, bits := List.replicate 5 true }) = .next t
        ∧ t.rxrdy = true ∧ t.rdr = 0x1F#8 ∧ t.rdr ≠ 0x00#8)
      ∧ (let s := receiving 0x41#8 { state := .frame, wait := 1, bits := List.replicate 5 true }
         s.wasReset = true ∧ s.FrameWaits ∧ s.rxrdy = false ∧ CompletedBy (.pinRxc true) s)
      ∧ (let s := receiving 0x8C#8 { state := .idle, wait := 0, bits := List.replicate 7 true }
         s.wasReset = true ∧ s.FrameWaits ∧ s.rxrdy = false ∧ CompletedBy (.pinRxc true) s
           ∧ ∃ t, exec (.pinRxc true) s = .next t ∧ t.rxrdy = true)
      ∧ (receiving 0x41#8 .idle).Settled
      ∧ ∃ t, exec .dataR { receiving 0x41#8 .idle with rxrdy := true } = .next t ∧ t.rxrdy = false :=
  ⟨⟨_, rfl, by decide, by decide, by decide⟩, by decide, ⟨by decide, by decide, by decide, by decide, _, rfl, by decide⟩,
    by decide, ⟨_, rfl, by decide⟩⟩
/-- A command with ER, another stimulus with the flags set, and a sample that completes a character and sets FE. -/
theorem witness_ErrorFlagsAreSticky :
    (∃ t, exec (.cmdW 0x10#8) { running 0x4D#8 0x04#8 with pe := true, oe := true, fe := true } = .next t)
      ∧ (∃ t, exec (.modeW 0x4D#8) { running 0x4D#8 0x04#8 with pe := true, oe := true, fe := true } = .next t)
      ∧ (let s := { receiving 0x41#8 { state := .frame, wait := 1, bits := List.replicate 5 true } with
              pins := { State.reset.pins with rxd := false } }
         s.wasReset = true ∧ s.fe = false ∧ s.FrameWaits ∧ ∃ t, exec (.pinRxc true) s = .next t ∧ t.fe = true) :=
  ⟨⟨_, rfl⟩, ⟨_, rfl⟩, ⟨by decide, by decide, by decide, _, rfl, by decide⟩⟩
theorem witness_AsyncRoundTrip :
    syncMode (receiving 0x4F#8 .idle).mode = false
      ∧ (receiving 0x4F#8 .idle).rx = { state := .idle, wait := 0, bits := [] }
      ∧ (receiving 0x4F#8 .idle).rxrdy = false := by decide
theorem witness_SyncRoundTrip :
    syncMode (running 0x8C#8 0x04#8).mode = true ∧ (running 0x8C#8 0x04#8).hunt = false
      ∧ (running 0x8C#8 0x04#8).rx.bits = [] ∧ (running 0x8C#8 0x04#8).rxrdy = false := by decide
theorem witness_ParityTotals : ∀ k, k < 5 → (0xFF#8).getLsbD k = (0x1F#8).getLsbD k := by decide
theorem witness_NoParity : pen 0x4D#8 = false ∧ pen 0x6D#8 = false := by decide
/-- Async and sync, with and without parity, every stop field. -/
theorem witness_FrameShape :
    (syncMode 0x8C#8 = true ∧ syncMode 0x4D#8 = false ∧ pen 0x5D#8 = true ∧ pen 0x9C#8 = true)
      ∧ (0x4D#8).getLsbD 7 = false ∧ (0x0D#8).getLsbD 7 = false ∧ (0x8D#8).getLsbD 7 = true ∧ (0xCD#8).getLsbD 7 = true
      ∧ 7 < nbits 0x4D#8 ∧ 1 < stops 0xCD#8 := by decide
/-- A byte for each clause: the four factor fields, each value of bit 7 in sync mode, external sync. -/
theorem witness_ModeFieldsDecode :
    (0x4D#8).getLsbD 1 = false ∧ ((0x4E#8).getLsbD 1 = true ∧ (0x4E#8).getLsbD 0 = false)
      ∧ ((0x4F#8).getLsbD 1 = true ∧ (0x4F#8).getLsbD 0 = true)
      ∧ (0x4D#8).getLsbD 7 = false ∧ (0xCD#8).getLsbD 7 = true ∧ syncMode 0x4D#8 = false
      ∧ (syncMode 0x8C#8 = true ∧ (0x8C#8).getLsbD 7 = true) ∧ (syncMode 0x0C#8 = true ∧ (0x0C#8).getLsbD 7 = false)
      ∧ (syncMode 0x4C#8 = true ∧ (0x4C#8).getLsbD 6 = true) ∧ (0x4D#8 : Byte) = 0x4D#8 := by decide
theorem witness_StatusRead : (unreset State.reset).wasReset = false ∧ State.reset.wasReset = true := by decide
theorem witness_MaskRegister :
    (base State.reset).params.hasMask = false
      ∧ (State.reset.params.hasMask = true ∧ (unreset State.reset).wasReset = false)
      ∧ State.reset.wasReset = true ∧ State.reset.Settled := by decide
theorem witness_VariantIsSuperset :
    (base State.reset).params.hasMask = false ∧ Instr.dataR.isMaskPort = false ∧ Instr.dataR ≠ .reset := by decide
theorem witness_MaskGatesNothing : Instr.statusR.isMaskPort = false ∧ Instr.statusR ≠ .reset := by decide
theorem witness_UpdateOutputsIsTheRuleLoop :
    shifting.wasReset = true ∧ shifting.Settled ∧ ∃ t, exec (.cmdW 0x29#8) shifting = .next t :=
  ⟨by decide, by decide, ⟨_, rfl⟩⟩
theorem witness_EveryStimulusSettlesOutputs :
    shifting.wasReset = true ∧ shifting.Settled
      ∧ ∃ t, exec (.pinTxc false) shifting = .next t ∧ t.events = [(.txd, true)] :=
  ⟨by decide, by decide, ⟨_, rfl, by decide⟩⟩
/-- A state in the middle of a frame meets the invariant and steps. -/
theorem witness_StepKeepsInvariant :
    (fed [0x9800#16] shifting).Inv ∧ ∃ t, step (fed [0x9800#16] shifting) = .next t :=
  ⟨⟨by decide, by decide, by decide, by decide, by decide, by decide, by decide⟩, ⟨_, rfl⟩⟩
theorem witness_DeviceResetEstablishesInvariant : ∃ t, exec .reset (unreset shifting) = .next t := ⟨_, rfl⟩

end Sys2Proof.Tests
end

section
/-! SUPPORT. The fields of the words that the encoder builds, and what the decoder answers on them (30_encoding R71 to R73, R86). -/

namespace Sys2Proof

/-! ### The fields of a word given as a concatenation -/

theorem append_inj {m n : Nat} {a a' : BitVec m} {b b' : BitVec n} (h : a ++ b = a' ++ b') : a = a' ∧ b = b' := by
  constructor
  · simpa [BitVec.extractLsb'_append_eq_left] using congrArg (BitVec.extractLsb' n m) h
  · simpa [BitVec.extractLsb'_append_eq_right] using congrArg (BitVec.extractLsb' 0 n) h

/-- The fields of a bus word are the parts it is made of (R71). -/
@[simp] theorem busFields_append (c p : BitVec 2) (z : BitVec 4) (b : Byte) :
    wordClass (c ++ p ++ z ++ b) = c ∧ wordPort (c ++ p ++ z ++ b) = p
      ∧ wordZero (c ++ p ++ z ++ b) = z ∧ wordData (c ++ p ++ z ++ b) = b := by
  obtain ⟨hcpz, hb⟩ := append_inj (word_eq_busFields (c ++ p ++ z ++ b))
  obtain ⟨hcp, hz⟩ := append_inj hcpz
  obtain ⟨hc, hp⟩ := append_inj hcp
  exact ⟨hc, hp, hz, hb⟩

/-- The fields of a pin word are the parts it is made of (R72). -/
@[simp] theorem pinFields_append (c : BitVec 2) (p : BitVec 3) (z : BitVec 10) (v : Bit) :
    wordClass (c ++ p ++ z ++ BitVec.ofBool v) = c ∧ wordPin (c ++ p ++ z ++ BitVec.ofBool v) = p
      ∧ wordPinZero (c ++ p ++ z ++ BitVec.ofBool v) = z ∧ wordLevel (c ++ p ++ z ++ BitVec.ofBool v) = v := by
  obtain ⟨hcpz, hv⟩ := append_inj (word_eq_pinFields (c ++ p ++ z ++ BitVec.ofBool v))
  obtain ⟨hcp, hz⟩ := append_inj hcpz
  obtain ⟨hc, hp⟩ := append_inj hcp
  exact ⟨hc, hp, hz, by simpa using congrArg (BitVec.getLsbD · 0) hv⟩

/-! ### The decoder on the encoder's words -/

/-- A class 00 word selects the stimulus by its port; port 11 has no write (R71, R74). -/
theorem decode_busWriteWord (seq : Seq) (p : BitVec 2) (b : Byte) :
    decode seq (busWriteWord p b) =
      if p = 0b00#2 then some (.dataW b)
      else if p = 0b01#2 then some (decodeControl seq b)
      else if p = 0b10#2 then some (.maskW b)
      else none := by
  simp [decode, decodeBusWrite, busWriteWord]

/-- A class 01 word selects the stimulus by its port (R71). -/
theorem decode_busReadWord (seq : Seq) (p : BitVec 2) :
    decode seq (busReadWord p) =
      if p = 0b00#2 then some .dataR
      else if p = 0b01#2 then some .statusR
      else if p = 0b10#2 then some .maskR
      else some .txrdyR := by
  simp [decode, decodeBusRead, busReadWord]

/-- A class 10 word selects the stimulus by its pin; pins 110 and 111 are reserved (R72, R74). -/
theorem decode_pinWord (seq : Seq) (p : BitVec 3) (v : Bit) :
    decode seq (pinWord p v) =
      if p = 0b000#3 then some (.pinRxd v)
      else if p = 0b001#3 then some (.pinCts v)
      else if p = 0b010#3 then some (.pinDsr v)
      else if p = 0b011#3 then some (.pinTxc v)
      else if p = 0b100#3 then some (.pinRxc v)
      else if p = 0b101#3 then some (.pinSyn v)
      else none := by
  simp [decode, decodePinWrite, pinWord]

/-- In ExpectCommand bit 6 tells CMD_W and CMD_IR apart (R75). -/
theorem decodeControl_expectCommand_cmdW {b : Byte} (h : b.getLsbD 6 = false) :
    decodeControl .expectCommand b = .cmdW b :=
  if_neg (by simp only [h, Bool.false_eq_true, not_false_eq_true])

theorem decodeControl_expectCommand_cmdIr {b : Byte} (h : b.getLsbD 6 = true) :
    decodeControl .expectCommand b = .cmdIr b :=
  if_pos h

/-! ### The words of the R86 table -/

/-- Where the low field is zero, `||| y` writes `y` into it. -/
theorem append_zero_or_setWidth {m n : Nat} (x : BitVec m) (y : BitVec n) :
    (x ++ 0#n) ||| y.setWidth (m + n) = x ++ y := by
  apply BitVec.eq_of_getLsbD_eq
  intro i hi
  rw [BitVec.getLsbD_or, BitVec.getLsbD_append, BitVec.getLsbD_append, BitVec.getLsbD_setWidth]
  by_cases h : i < n
  · simp only [h, hi, ite_true, BitVec.getLsbD_zero, Bool.false_or, decide_true, Bool.true_and]
  · simp only [h, ite_false, BitVec.getLsbD_of_ge y i (by omega), Bool.and_false, Bool.or_false]

/-- The word of `k | b` is the encoder's word with data byte `b` (R86). -/
theorem byteWord_eq_busWriteWord (p : BitVec 2) (b : Byte) :
    byteWord (busWriteWord p 0#8) b = busWriteWord p b :=
  append_zero_or_setWidth (0b00#2 ++ p ++ 0#4) b

/-- The word of `k | v` is the encoder's word with level `v` (R86). -/
theorem levelWord_eq_pinWord (p : BitVec 3) (v : Bit) :
    levelWord (pinWord p false) v = pinWord p v :=
  append_zero_or_setWidth (0b10#2 ++ p ++ 0#10) (BitVec.ofBool v)

theorem decode_dataWord (seq : Seq) (b : Byte) : decode seq (byteWord 0x0000#16 b) = some (.dataW b) :=
  (congrArg (decode seq) (byteWord_eq_busWriteWord 0b00#2 b)).trans (by simp [decode_busWriteWord])

/-- `control_w b` is one word for five stimuli, told apart by the sequencer and bit 6 (R75). -/
theorem decode_controlWord (seq : Seq) (b : Byte) :
    decode seq (byteWord 0x1000#16 b) = some (decodeControl seq b) :=
  (congrArg (decode seq) (byteWord_eq_busWriteWord 0b01#2 b)).trans (by simp [decode_busWriteWord])

theorem decode_maskWord (seq : Seq) (b : Byte) : decode seq (byteWord 0x2000#16 b) = some (.maskW b) :=
  (congrArg (decode seq) (byteWord_eq_busWriteWord 0b10#2 b)).trans (by simp [decode_busWriteWord])

/-- Settles O2: a word of the R86 table is the encoder's word with that operand, whose fields the decoder reads back. -/
theorem notationWordsDecode : Obligations.NotationWordsDecode := by
  intro seq b v
  -- At each port and pin below, the table's word and the decoder's tests on that port or pin are closed and evaluate.
  have read (p : BitVec 2) := decode_busReadWord seq p
  have pin (p : BitVec 3) : decode seq (levelWord (pinWord p false) v) = _ :=
    (congrArg (decode seq) (levelWord_eq_pinWord p v)).trans (decode_pinWord seq p v)
  exact ⟨decode_dataWord seq b,
    decode_controlWord _ b, decode_controlWord _ b, decode_controlWord _ b,
    fun h => (decode_controlWord _ b).trans (congrArg some (decodeControl_expectCommand_cmdW h)),
    fun h => (decode_controlWord _ b).trans (congrArg some (decodeControl_expectCommand_cmdIr h)),
    decode_maskWord seq b, read 0b00#2, read 0b01#2, read 0b10#2, read 0b11#2,
    pin 0b000#3, pin 0b001#3, pin 0b010#3, pin 0b011#3, pin 0b100#3, pin 0b101#3, rfl⟩

end Sys2Proof
end

section
/-! PROOF. The step refuses exactly the reserved words (30_encoding R74): the list of R74 is a function of what the decoder answers,
and a meaning refuses only the mask port of the base chip. -/

namespace Sys2Proof

open Machine

/-! ### The reserved words, read off the decoder's answer -/

/-- Whether a machine refuses the word with this decoding: nothing, or an access of a mask port it does not have. -/
def refusesDecoded (hasMask : Bool) : Option Instr → Bool
  | none => true
  | some i => i.isMaskPort && !hasMask

@[simp] theorem refusesDecoded_none (hasMask : Bool) : refusesDecoded hasMask none = true := rfl
@[simp] theorem refusesDecoded_some (hasMask : Bool) (i : Instr) :
    refusesDecoded hasMask (some i) = (i.isMaskPort && !hasMask) := rfl

theorem decodeControl_isMaskPort (seq : Seq) (b : Byte) : (decodeControl seq b).isMaskPort = false := by
  cases seq with
  | expectMode | expectSync1 | expectSync2 => rfl
  | expectCommand =>
    rw [decodeControl]
    split <;> rfl

/-- The four values of a class or port field (R70, R71). -/
theorem bitVec2_cases (p : BitVec 2) : p = 0b00#2 ∨ p = 0b01#2 ∨ p = 0b10#2 ∨ p = 0b11#2 := by
  decide +revert

/-- The eight values of a pin field (R72). -/
theorem bitVec3_cases (p : BitVec 3) :
    p = 0b000#3 ∨ p = 0b001#3 ∨ p = 0b010#3 ∨ p = 0b011#3 ∨ p = 0b100#3 ∨ p = 0b101#3 ∨ p = 0b110#3 ∨ p = 0b111#3 := by
  decide +revert

/-- R74 for class 00. -/
theorem refusesDecoded_decodeBusWrite (hasMask : Bool) (seq : Seq) (w : Word) :
    refusesDecoded hasMask (decodeBusWrite seq w) =
      (wordPort w == 0b11#2 || wordZero w != 0#4 || (wordPort w == 0b10#2 && !hasMask)) := by
  by_cases hz : wordZero w = 0#4
  · rcases bitVec2_cases (wordPort w) with hp | hp | hp | hp
    · simp [decodeBusWrite, hz, hp, Instr.isMaskPort]
    · simp [decodeBusWrite, hz, hp, decodeControl_isMaskPort]
    · simp [decodeBusWrite, hz, hp, Instr.isMaskPort]
    · simp [decodeBusWrite, hz, hp]
  · simp [decodeBusWrite, hz]

/-- R74 for class 01. -/
theorem refusesDecoded_decodeBusRead (hasMask : Bool) (w : Word) :
    refusesDecoded hasMask (decodeBusRead w) =
      (wordZero w != 0#4 || wordData w != 0#8 || (wordPort w == 0b10#2 && !hasMask)) := by
  by_cases hz : wordZero w ≠ 0#4 ∨ wordData w ≠ 0#8
  · rcases hz with h | h <;> simp [decodeBusRead, h]
  · obtain ⟨hz, hd⟩ : wordZero w = 0#4 ∧ wordData w = 0#8 := by simpa using hz
    rcases bitVec2_cases (wordPort w) with hp | hp | hp | hp <;>
      simp [decodeBusRead, hz, hd, hp, Instr.isMaskPort]

/-- R74 for class 10, in either machine. -/
theorem refusesDecoded_decodePinWrite (hasMask : Bool) (w : Word) :
    refusesDecoded hasMask (decodePinWrite w) =
      (wordPin w == 0b110#3 || wordPin w == 0b111#3 || wordPinZero w != 0#10) := by
  by_cases hz : wordPinZero w = 0#10
  · rcases bitVec3_cases (wordPin w) with hp | hp | hp | hp | hp | hp | hp | hp <;>
      simp [decodePinWrite, hz, hp, Instr.isMaskPort]
  · simp [decodePinWrite, hz]

/-- R74 lists the words with no decoding and, in the base chip, those of the mask port. -/
theorem reservedWord_eq_refusesDecoded (hasMask : Bool) (seq : Seq) (w : Word) :
    reservedWord hasMask w = refusesDecoded hasMask (decode seq w) := by
  rcases bitVec2_cases (wordClass w) with hc | hc | hc | hc
  · simp [reservedWord, decode, hc, refusesDecoded_decodeBusWrite]
  · simp [reservedWord, decode, hc, refusesDecoded_decodeBusRead]
  · simp [reservedWord, decode, hc, refusesDecoded_decodePinWrite]
  · by_cases hz : wordResetZero w = 0#14 <;> simp [reservedWord, decode, hc, hz, Instr.isMaskPort]

namespace Machine

/-! ### What a meaning and a step can refuse -/

theorem busAccess_ne_refused (s after : State) (r : Refusal) : busAccess s after ≠ .refused r := by
  rcases busAccess_cases s after with ⟨-, h⟩ | ⟨-, h⟩ <;> simp [h]

theorem pinWrite_ne_refused (latched after : State) (r : Refusal) : pinWrite latched after ≠ .refused r := by
  unfold pinWrite
  split <;> simp

theorem maskPort_refused {s after : State} {r : Refusal} :
    maskPort s after = .refused r ↔ s.params.hasMask = false ∧ r = .reservedEncoding := by
  cases h : s.params.hasMask with
  | false => simp [maskPort, h, eq_comm]
  | true => simp [maskPort, h, busAccess_ne_refused]

/-- A meaning refuses only the mask port of the base chip, as reserved (45_status_outputs R200). -/
theorem exec_refused {i : Instr} {s : State} {r : Refusal} :
    exec i s = .refused r ↔ i.isMaskPort = true ∧ s.params.hasMask = false ∧ r = .reservedEncoding := by
  cases i with
  | maskW | maskR => exact maskPort_refused.trans (and_iff_right rfl).symm
  | dataW | modeW | sync1W | sync2W | cmdW | cmdIr | dataR | statusR | txrdyR =>
    exact iff_of_false (busAccess_ne_refused _ _ _) (by simp [Instr.isMaskPort])
  | pinRxd | pinCts | pinDsr | pinTxc | pinRxc | pinSyn =>
    exact iff_of_false (pinWrite_ne_refused _ _ _) (by simp [Instr.isMaskPort])
  | reset => simp [exec, execReset, Instr.isMaskPort]

theorem step_of_decode_none {s : State} {w : Word} {rest : List Word} (hp : s.pending = w :: rest)
    (hd : decode s.seq w = none) : step s = .refused .reservedEncoding := by
  simp [step, fetch, hp, hd]

theorem step_of_decode_some {s : State} {w : Word} {rest : List Word} {i : Instr} (hp : s.pending = w :: rest)
    (hd : decode s.seq w = some i) : step s = exec i { s with pending := rest } := by
  simp [step, fetch, hp, hd]

/-- A step with a word to take refuses exactly by that word's decoding, and only as reserved (30_encoding R74). -/
theorem step_refused {s : State} {w : Word} {rest : List Word} {r : Refusal} (hp : s.pending = w :: rest) :
    step s = .refused r ↔
      refusesDecoded s.params.hasMask (decode s.seq w) = true ∧ r = .reservedEncoding := by
  cases hd : decode s.seq w with
  | none => simp [step_of_decode_none hp hd, eq_comm]
  | some i => simp [step_of_decode_some hp hd, exec_refused, and_assoc]

end Machine

/-- Settles O6: R74's list and the step's refusals are both read off the decoding of the next word. -/
theorem reservedWordsAreRefused : Obligations.ReservedWordsAreRefused := by
  intro s w rest hp
  rw [reservedWord_eq_refusesDecoded _ s.seq]
  exact ⟨fun h => (step_refused hp).2 ⟨h, rfl⟩,
    fun h r hr => Bool.false_ne_true (h.symm.trans ((step_refused hp).1 hr).1)⟩

end Sys2Proof
end

section
/-! PROOF. The decode functions of the mode byte, bit by bit (30_encoding R78). -/

namespace Sys2Proof.Machine

/-- Two neighbouring bits of a byte, as its decode functions read them. -/
theorem extractLsb'_two (m : Byte) (k : Nat) :
    m.extractLsb' k 2 = BitVec.ofBool (m.getLsbD (k + 1)) ++ BitVec.ofBool (m.getLsbD k) := by
  apply BitVec.eq_of_getLsbD_eq
  intro i hi
  rw [BitVec.getLsbD_extractLsb', BitVec.getLsbD_append]
  obtain rfl | rfl : i = 0 ∨ i = 1 := by omega
  · simp
  · simp

/-- B = 00 selects sync mode. -/
theorem syncMode_iff (m : Byte) : syncMode m = true ↔ m.getLsbD 1 = false ∧ m.getLsbD 0 = false := by
  rw [syncMode, modeFactorField, extractLsb'_two]
  cases m.getLsbD 1 <;> cases m.getLsbD 0 <;> decide

/-- B gives the factor: bit 1 clear is ×1, sync mode included (R78). -/
theorem factor_eq (m : Byte) :
    factor m = if m.getLsbD 1 then (if m.getLsbD 0 then 64 else 16) else 1 := by
  rw [factor, modeFactorField, extractLsb'_two]
  cases m.getLsbD 1 <;> cases m.getLsbD 0 <;> decide

/-- L counts the data bits above 5. -/
theorem nbits_eq (m : Byte) : nbits m = 5 + (m.getLsbD 2).toNat + 2 * (m.getLsbD 3).toNat := by
  rw [nbits, modeLengthField, extractLsb'_two]
  cases m.getLsbD 2 <;> cases m.getLsbD 3 <;> decide

/-- Only the high bit of the stop field counts (R79). -/
theorem stops_eq (m : Byte) : stops m = if m.getLsbD 7 then 2 else 1 := by
  rw [stops, modeStopField, extractLsb'_two]
  cases m.getLsbD 7 <;> cases m.getLsbD 6 <;> decide

/-- Settles O50: each field is read bit by bit, and the worked example 0x4D is evaluated. -/
theorem modeFieldsDecode : Obligations.ModeFieldsDecode := by
  intro m
  refine ⟨syncMode_iff m, ?_, ?_, ?_, nbits_eq m, rfl, rfl, ?_, ?_, ?_, ?_, ?_, ?_, ?_⟩
  · intro h; simp only [factor_eq, h, reduceIte, Bool.false_eq_true]
  · intro h1 h0; simp only [factor_eq, h1, h0, reduceIte, Bool.false_eq_true]
  · intro h1 h0; simp only [factor_eq, h1, h0, reduceIte]
  · intro h; simp only [stops_eq, h, reduceIte, Bool.false_eq_true]
  · intro h; simp only [stops_eq, h, reduceIte]
  · simp [esd]
  · intro h; simp only [nsync, h, reduceIte, Bool.false_eq_true]
  · intro h h7; simp only [nsync, h, h7, reduceIte]
  · intro h h7; simp only [nsync, h, h7, reduceIte, Bool.false_eq_true]
  · rintro rfl
    decide

end Sys2Proof.Machine
end

section
/-! PROOF. The register-write sequencer (40_sequencer R100 to R103): what the three sequencer writes change and leave unchanged, and
which stimulus a control-port write runs. -/

namespace Sys2Proof.Machine

/-! ### The outputs after an update, and a bus access on either side of the first reset -/

/-- An update after a change that leaves `S.out` alone is `update_outputs(forced)` as seen from the state before (R196). -/
theorem emitted_updateOutputs {forced : List OutPin} {s s' : State} (h : s'.out = s.out) :
    Emitted forced s (updateOutputs forced s') :=
  ⟨updateOutputs_settled forced s', by rw [← h]; rfl⟩

theorem busAccess_of_wasReset {s : State} (h : s.wasReset = true) (after : State) : busAccess s after = .next after :=
  busAccess_next.2 ⟨h, rfl⟩

theorem busAccess_of_unreset {s : State} (h : s.wasReset = false) (after : State) : busAccess s after = .fault .unreset := by
  simp [busAccess, h]

theorem maskPort_of_hasMask {s : State} (h : s.params.hasMask = true) (after : State) :
    maskPort s after = busAccess s after := by
  simp [maskPort, h]

/-- Before the first reset every bus access of a port the machine has faults (70_reset_and_hazards R232). -/
theorem exec_busAccess_of_unreset {i : Instr} {s : State} (hbus : i.isBusAccess = true)
    (hmask : i.isMaskPort = true → s.params.hasMask = true) (h : s.wasReset = false) :
    exec i s = .fault .unreset := by
  cases i with
  | dataW | modeW | sync1W | sync2W | cmdW | cmdIr | dataR | statusR | txrdyR => exact busAccess_of_unreset h _
  | maskW | maskR => exact (maskPort_of_hasMask (hmask rfl) _).trans (busAccess_of_unreset h _)
  | pinRxd | pinCts | pinDsr | pinTxc | pinRxc | pinSyn | reset => simp [Instr.isBusAccess] at hbus

/-! ### The sequencer writes -/

/-- Settles O14: every field that R101 names is read off the record that MODE_W hands to `update_outputs`. -/
theorem modeWrite : Obligations.ModeWrite := by
  intro b s
  refine ⟨decode_controlWord _ b, fun hreset => ⟨_, busAccess_of_wasReset hreset _, ?_⟩⟩
  -- The thirteen written fields, the frame of all others, then the output side.
  exact ⟨rfl, rfl, rfl, rfl, rfl, rfl, rfl, rfl, rfl, rfl, rfl, rfl, rfl, rfl, emitted_updateOutputs rfl, rfl⟩

/-- Settles O15: each write sets one sync character and the sequencer, then updates the outputs. -/
theorem syncWrites : Obligations.SyncWrites := by
  intro b s
  refine ⟨decode_controlWord _ b, decode_controlWord _ b, fun hreset => ?sync1, fun hreset => ?sync2⟩
  case sync1 => exact ⟨_, busAccess_of_wasReset hreset _, rfl, rfl, rfl, emitted_updateOutputs rfl, rfl⟩
  case sync2 => exact ⟨_, busAccess_of_wasReset hreset _, rfl, rfl, rfl, emitted_updateOutputs rfl, rfl⟩

/-! ### The dispatch of a control-port write -/

theorem decodeControl_isBusAccess (seq : Seq) (b : Byte) : (decodeControl seq b).isBusAccess = true := by
  cases seq with
  | expectMode | expectSync1 | expectSync2 => rfl
  | expectCommand =>
    rw [decodeControl]
    split <;> rfl

/-- A control-port write runs the stimulus that `decodeControl` selects (R100); it never refuses the word. -/
theorem step_controlWord {s : State} {b : Byte} {rest : List Word} (hp : s.pending = controlWord b :: rest) :
    step s = exec (decodeControl s.seq b) { s with pending := rest } :=
  step_of_decode_some hp (decode_controlWord s.seq b)

/-- Settles O16: the step runs the selected stimulus, which is a bus access whatever the sequencer selects. -/
theorem controlWriteDispatch : Obligations.ControlWriteDispatch := by
  intro s b rest hp
  rw [step_controlWord hp]
  refine ⟨?_, ?_, ?_, ?_, ?_, ?_⟩
  · intro hunreset
    exact exec_busAccess_of_unreset (decodeControl_isBusAccess _ _) (by simp [decodeControl_isMaskPort]) hunreset
  · intro hseq; rw [hseq, decodeControl]
  · intro hseq; rw [hseq, decodeControl]
  · intro hseq; rw [hseq, decodeControl]
  · intro hseq hir; rw [hseq, decodeControl_expectCommand_cmdIr hir]
  · intro hseq hir; rw [hseq, decodeControl_expectCommand_cmdW hir]

end Sys2Proof.Machine
end

section
/-! SUPPORT. What every stimulus does to the output side (45_status_outputs R196, R197) and to the command byte
(41_command_handshake R116). -/

namespace Sys2Proof.Machine

/-! ### A pin write on either side of the first reset (70_reset_and_hazards R232) -/

theorem pinWrite_of_wasReset {s : State} {p : Pins} (h : s.wasReset = true) (after : State) :
    pinWrite { s with pins := p } after = .next after :=
  pinWrite_next.2 (.inl ⟨h, rfl⟩)

theorem pinWrite_of_unreset {s : State} {p : Pins} (h : s.wasReset = false) (after : State) :
    pinWrite { s with pins := p } after = .next (s.latchedOnly p) :=
  pinWrite_next.2 (.inr ⟨h, rfl⟩)

/-! ### What a stimulus does to the output side -/

/-- The stimulus emitted nothing and left `S.out` alone; after the first reset no level moved either. -/
abbrev Silent (s t : State) : Prop :=
  t.events = [] ∧ t.out = s.out ∧ (s.wasReset = true → levels t = levels s)

/-- A pin write updates the outputs, or is silent because it came before the first reset. -/
theorem pinWrite_outputs {s latched after t : State} (h : pinWrite latched after = .next t)
    (hreset : latched.wasReset = s.wasReset) (hout : latched.out = s.out) (hafter : Emitted [] s after) :
    Emitted [] s t ∨ Silent s t := by
  rcases pinWrite_next.1 h with ⟨-, rfl⟩ | ⟨hunreset, rfl⟩
  · exact .inl hafter
  · exact .inr ⟨rfl, hout, fun hs => by simp [← hreset, hunreset] at hs⟩

/-- The value of a read is no part of the outputs. -/
theorem emitted_returning {forced : List OutPin} {s t : State} {b : Byte} (h : Emitted forced s t) :
    Emitted forced s (returning b t) := h

/-- A stimulus updates the outputs with its own forced pins (45_status_outputs R196), or forces none and is silent. -/
theorem exec_outputs {i : Instr} {s t : State} (h : exec i s = .next t) :
    Emitted i.forced s t ∨ (i.forced = [] ∧ Silent s t) := by
  cases i with
  | modeW | sync1W | sync2W | cmdIr =>
    obtain ⟨-, rfl⟩ := busAccess_next.1 h
    exact .inl (emitted_updateOutputs rfl)
  | cmdW b =>
    obtain ⟨-, rfl⟩ := busAccess_next.1 h
    exact .inl (emitted_updateOutputs (applyCommand_out b s))
  | dataW =>
    obtain ⟨-, rfl⟩ := busAccess_next.1 h
    exact .inl (emitted_updateOutputs (by split <;> rfl))
  | dataR =>
    obtain ⟨-, rfl⟩ := busAccess_next.1 h
    exact .inl (emitted_returning (emitted_updateOutputs (by split <;> rfl)))
  | maskW =>
    obtain ⟨-, -, rfl⟩ := maskPort_next.1 h
    exact .inl (emitted_updateOutputs rfl)
  | statusR | txrdyR =>
    obtain ⟨-, rfl⟩ := busAccess_next.1 h
    exact .inr ⟨rfl, rfl, rfl, fun _ => rfl⟩
  | maskR =>
    obtain ⟨-, -, rfl⟩ := maskPort_next.1 h
    exact .inr ⟨rfl, rfl, rfl, fun _ => rfl⟩
  | pinRxd | pinCts | pinDsr =>
    exact (pinWrite_outputs (s := s) h rfl rfl (emitted_updateOutputs rfl)).imp_right (⟨rfl, ·⟩)
  | pinTxc | pinRxc | pinSyn =>
    exact (pinWrite_outputs (s := s) h rfl rfl (emitted_updateOutputs (by split <;> simp))).imp_right (⟨rfl, ·⟩)
  | reset =>
    obtain rfl := Host.Outcome.next.inj h
    exact .inl (emitted_updateOutputs rfl)

/-- After the first reset a stimulus keeps every output pin at its level (R197). -/
theorem exec_settled {i : Instr} {s t : State} (hreset : s.wasReset = true) (hs : s.Settled)
    (h : exec i s = .next t) : t.Settled := by
  rcases exec_outputs h with ⟨ht, -⟩ | ⟨-, -, hout, hlevels⟩
  · exact ht
  · exact hout.trans (hs.trans (hlevels hreset).symm)

/-! ### What a stimulus does to the command byte -/

/-- `S.cmd` after a stimulus that found it at `c` (41_command_handshake R116). -/
def commandAfter : Instr → Byte → Byte
  | .cmdW b, _ => b
  | .cmdIr _, _ | .reset, _ => 0x00#8
  | .dataW _, c | .modeW _, c | .sync1W _, c | .sync2W _, c | .maskW _, c | .dataR, c | .statusR, c | .maskR, c
  | .txrdyR, c | .pinRxd _, c | .pinCts _, c | .pinDsr _, c | .pinTxc _, c | .pinRxc _, c | .pinSyn _, c => c

theorem commandAfter_of_not_writesCommand {i : Instr} (h : i.writesCommand = false) (c : Byte) :
    commandAfter i c = c := by
  cases i with
  | cmdW | cmdIr | reset => simp [Instr.writesCommand] at h
  | dataW | modeW | sync1W | sync2W | maskW | dataR | statusR | maskR | txrdyR => rfl
  | pinRxd | pinCts | pinDsr | pinTxc | pinRxc | pinSyn => rfl

theorem pinWrite_cmd {s latched after t : State} (h : pinWrite latched after = .next t)
    (hlatched : latched.cmd = s.cmd) (hafter : after.cmd = s.cmd) : t.cmd = s.cmd := by
  rcases pinWrite_next.1 h with ⟨-, rfl⟩ | ⟨-, rfl⟩
  · exact hafter
  · exact hlatched

theorem exec_cmd {i : Instr} {s t : State} (h : exec i s = .next t) : t.cmd = commandAfter i s.cmd := by
  cases i with
  | modeW | sync1W | sync2W | cmdIr | statusR | txrdyR =>
    obtain ⟨-, rfl⟩ := busAccess_next.1 h
    rfl
  | cmdW b =>
    obtain ⟨-, rfl⟩ := busAccess_next.1 h
    exact applyCommand_cmd b s
  | dataW | dataR =>
    obtain ⟨-, rfl⟩ := busAccess_next.1 h
    simp only [returning_cmd, updateOutputs_cmd]
    split <;> rfl
  | maskW | maskR =>
    obtain ⟨-, -, rfl⟩ := maskPort_next.1 h
    rfl
  | pinRxd | pinCts | pinDsr => exact pinWrite_cmd h rfl rfl
  | pinTxc | pinRxc | pinSyn => exact pinWrite_cmd h rfl (by rw [updateOutputs_cmd]; split <;> simp)
  | reset =>
    obtain rfl := Host.Outcome.next.inj h
    rfl

end Sys2Proof.Machine
end

section
/-! PROOF. Command bytes and the handshake lines (41_command_handshake): CMD_IR and CMD_W, their handshake outputs, the break, and
the pins CTS, DSR and RXD. -/

namespace Sys2Proof.Machine

/-! ### CMD_IR and CMD_W -/

/-- A core reset writes its value to every field of R231. -/
theorem coreReset_atResetValues (s : State) : (coreReset s).AtResetValues := by
  simp [State.AtResetValues, TxShift.idle, RxAssembly.idle]

/-- Settles O12: CMD_IR is a core reset with every pin forced out, whatever the byte. -/
theorem internalReset : Obligations.InternalReset := by
  intro b s
  refine ⟨fun hir => (decode_controlWord _ b).trans (congrArg some (decodeControl_expectCommand_cmdIr hir)),
    fun hreset => ⟨_, busAccess_of_wasReset hreset _, ?_⟩⟩
  exact ⟨coreReset_atResetValues s, rfl, hreset, rfl, rfl, rfl, levels_coreReset s, emissions_coreReset s, rfl⟩

/-- Settles O19: each field is read off by its lemma about `applyCommand`, under the bits that the clause names. -/
theorem commandWrite : Obligations.CommandWrite := by
  intro b s hir
  refine ⟨(decode_controlWord _ b).trans (congrArg some (decodeControl_expectCommand_cmdW hir)),
    fun hreset => ⟨_, busAccess_of_wasReset hreset _, applyCommand_cmd b s, ?rxDisabled, ?errorReset, ?errorsKept,
      ?enterHunt, ?huntKept, ?rxKept, ?bitsKept, ?frame, emitted_updateOutputs (applyCommand_out b s), rfl⟩⟩
  case rxDisabled =>
    intro (hRxE : cmdRxE b = false)
    simp [applyCommand_rx, applyCommand_huntHist, hRxE, RxAssembly.idle]
  case errorReset =>
    intro (hEr : cmdEr b = true)
    simp [applyCommand_pe, applyCommand_oe, applyCommand_fe, hEr]
  case errorsKept =>
    intro (hEr : cmdEr b = false)
    simp [applyCommand_pe, applyCommand_oe, applyCommand_fe, hEr]
  case enterHunt =>
    intro (hEh : cmdEh b = true) hsync
    -- RxE decides whether the partial character goes with the whole assembly state or alone.
    cases hRxE : cmdRxE b <;>
      simp [applyCommand_hunt, applyCommand_syndet, applyCommand_huntHist, applyCommand_rx, hEh, hsync, hRxE,
        RxAssembly.idle]
  case huntKept =>
    intro (hno : ¬(cmdEh b = true ∧ syncMode s.mode = true))
    exact ⟨(applyCommand_hunt b s).trans (if_neg hno), (applyCommand_syndet b s).trans (if_neg hno)⟩
  case rxKept =>
    intro (hRxE : cmdRxE b = true)
    by_cases hhunt : cmdEh b = true ∧ syncMode s.mode = true
    · simp [applyCommand_rx, hRxE, hhunt]
    · simp only [updateOutputs_rx, applyCommand_rx, hRxE, if_neg hhunt, Bool.true_eq_false, if_false, and_self]
  case bitsKept =>
    intro (hRxE : cmdRxE b = true) (hno : ¬(cmdEh b = true ∧ syncMode s.mode = true))
    simp only [updateOutputs_rx, updateOutputs_huntHist, applyCommand_rx, applyCommand_huntHist, hRxE, hno,
      Bool.true_eq_false, or_self, if_false, and_self]
  case frame =>
    have hframe := congrArg (State.withOutputsOf · s) (applyCommand_frame b s)
    exact hframe

/-! ### The handshake outputs (R116) -/

/-- The two handshake outputs stand first in the pin order, so when both are forced they come first. -/
theorem emissions_take_two {forced : List OutPin} (hdtr : .dtr ∈ forced) (hrts : .rts ∈ forced) (s : State) :
    (emissions forced s).take 2 = [(.dtr, dtrLevel s), (.rts, rtsLevel s)] := by
  simp [emissions, OutPin.all, List.filter_cons, hdtr, hrts, levels, OutLevels.get]

/-- A stimulus that writes the command byte forces both handshake outputs; any other forces nothing, as the next lemma says. -/
theorem handshake_forced {i : Instr} (h : i.writesCommand = true) : .dtr ∈ i.forced ∧ .rts ∈ i.forced := by
  cases i with
  | cmdW | cmdIr | reset => simp [Instr.forced]
  | dataW | modeW | sync1W | sync2W | maskW | dataR | statusR | maskR | txrdyR => simp [Instr.writesCommand] at h
  | pinRxd | pinCts | pinDsr | pinTxc | pinRxc | pinSyn => simp [Instr.writesCommand] at h

theorem forced_of_not_writesCommand {i : Instr} (h : i.writesCommand = false) : i.forced = [] := by
  cases i with
  | cmdW | cmdIr | reset => simp [Instr.writesCommand] at h
  | dataW | modeW | sync1W | sync2W | maskW | dataR | statusR | maskR | txrdyR => rfl
  | pinRxd | pinCts | pinDsr | pinTxc | pinRxc | pinSyn => rfl

/-- A stimulus that writes the command byte emits the handshake outputs first, as the new byte sets them. -/
theorem exec_emits_handshake {i : Instr} {s t : State} (hw : i.writesCommand = true) (h : exec i s = .next t) :
    t.events.take 2
      = [(.dtr, !(commandAfter i s.cmd).getLsbD 1), (.rts, !(commandAfter i s.cmd).getLsbD 5)] := by
  obtain ⟨hdtr, hrts⟩ := handshake_forced hw
  rcases exec_outputs h with ⟨-, hevents⟩ | ⟨hnone, -⟩
  · rw [hevents, emissions_take_two hdtr hrts, ← exec_cmd h]
    rfl
  · simp [hnone] at hdtr

/-- From settled outputs a pin whose level did not move, and that the stimulus does not force, is not emitted. -/
theorem exec_not_emitted {i : Instr} {s t : State} {p : OutPin} (hs : s.Settled) (h : exec i s = .next t)
    (hp : p ∉ i.forced) (hlevel : (levels t).get p = (levels s).get p) (lv : Bit) : (p, lv) ∉ t.events := by
  rcases exec_outputs h with ⟨-, hevents⟩ | ⟨-, hevents, -⟩
  · rw [hevents, mem_emissions]
    rintro ⟨-, hforced | hmoved⟩
    · exact hp hforced
    · exact hmoved (hlevel.trans (congrArg (OutLevels.get · p) hs.symm))
  · simp [hevents]

/-- Settles O21: the handshake levels are functions of the command byte, which only three stimuli write. -/
theorem commandEmitsHandshakeOutputs : Obligations.CommandEmitsHandshakeOutputs := by
  refine ⟨fun b s t h => exec_emits_handshake rfl h, ?resets, ?others⟩
  case resets =>
    rintro i s t (⟨b, rfl⟩ | rfl) h
    · simpa [commandAfter] using exec_emits_handshake rfl h
    · simpa [commandAfter] using exec_emits_handshake rfl h
  case others =>
    intro i s t hs hw h
    have hcmd : t.cmd = s.cmd := (exec_cmd h).trans (commandAfter_of_not_writesCommand hw s.cmd)
    have hforced (p : OutPin) : p ∉ i.forced := by simp [forced_of_not_writesCommand hw]
    have hdtr : (levels t).get .dtr = (levels s).get .dtr := congrArg (fun c => !cmdDtr c) hcmd
    have hrts : (levels t).get .rts = (levels s).get .rts := congrArg (fun c => !cmdRts c) hcmd
    exact ⟨hcmd, fun lv => ⟨exec_not_emitted hs h (hforced _) hdtr lv, exec_not_emitted hs h (hforced _) hrts lv⟩⟩

/-! ### The break (R117) -/

/-- Of the command byte a bit tick reads TxEN only. -/
theorem txBitTick_withCmd {c : Byte} {s : State} (hTxEn : cmdTxEn c = cmdTxEn s.cmd) :
    txBitTick { s with cmd := c } = { txBitTick s with cmd := c } := by
  have henabled : txEnabled { s with cmd := c } = txEnabled s := by simp [txEnabled, hTxEn]
  simp only [txBitTick, henabled]
  split
  · rfl
  · split <;> rfl

/-- Of the command byte a counted edge of TxC reads TxEN only. -/
theorem txcFalling_withCmd {c : Byte} {s : State} (hTxEn : cmdTxEn c = cmdTxEn s.cmd) :
    txcFalling { s with cmd := c } = { txcFalling s with cmd := c } := by
  unfold txcFalling
  split
  · exact txBitTick_withCmd (s := { s with txDiv := 0 }) hTxEn
  · rfl

/-- Settles O22: the TXD pin follows its level, and a TxC write reads no bit of the command byte but TxEN. -/
theorem sendBreak : Obligations.SendBreak := by
  refine ⟨?level, ?underneath⟩
  case level =>
    intro i s t hreset hs h
    have htxd : t.out.txd = txdLevel t := congrArg OutLevels.txd (exec_settled hreset hs h)
    constructor
    · intro (hbreak : cmdSbrk t.cmd = true)
      simp [htxd, txdLevel, hbreak]
    · intro (hbreak : cmdSbrk t.cmd = false)
      simp [htxd, txdLevel, hbreak]
  case underneath =>
    intro v s t h
    have hTxEn : cmdTxEn (s.cmd ^^^ 0x08#8) = cmdTxEn s.cmd := by simp [cmdTxEn]
    rcases pinWrite_next.1 h with ⟨hreset, rfl⟩ | ⟨hunreset, rfl⟩
    · refine ⟨_, pinWrite_of_wasReset (s := { s with cmd := s.cmd ^^^ 0x08#8 }) hreset _, ?_⟩
      simp only [updateOutputs_tx, updateOutputs_txDiv, updateOutputs_thre]
      split
      · have hfalling := txcFalling_withCmd (s := { s with pins := { s.pins with txc := v } }) hTxEn
        simp only [hfalling, and_self]
      · exact ⟨rfl, rfl, rfl⟩
    · exact ⟨_, pinWrite_of_unreset (s := { s with cmd := s.cmd ^^^ 0x08#8 }) hunreset _, rfl, rfl, rfl⟩

/-! ### The pins CTS, DSR and RXD (R118, R119, 43_receiver R150) -/

/-- When at most one pin is off its level, an update with nothing forced emits at most that pin. -/
theorem emissions_of_others_settled {s : State} {p : OutPin}
    (h : ∀ q, q ≠ p → (levels s).get q = s.out.get q) :
    emissions [] s = if (levels s).get p = s.out.get p then [] else [(p, (levels s).get p)] := by
  have hcount : OutPin.all.count p = 1 := by cases p <;> rfl
  split
  case isTrue hp =>
    have hall (q : OutPin) : (levels s).get q = s.out.get q := by
      by_cases hq : q = p
      · exact hq ▸ hp
      · exact h q hq
    simp [emissions, hall]
  case isFalse hp =>
    have hpred (q : OutPin) : ((levels s).get q != s.out.get q) = (q == p) := by
      by_cases hq : q = p
      · simp [hq, hp]
      · simp [hq, h q hq]
    simp [emissions, hpred, List.filter_beq, hcount]

/-- The word of a pin write is decoded by its pin (30_encoding R86, R72). -/
theorem decode_levelWord (seq : Seq) (p : BitVec 3) (v : Bit) :
    decode seq (levelWord (pinWord p false) v) = decode seq (pinWord p v) :=
  congrArg (decode seq) (levelWord_eq_pinWord p v)

/-- Settles O23: of the levels only TXRDY reads the CTS latch. -/
theorem ctsWrite : Obligations.CtsWrite := by
  intro v s
  refine ⟨fun seq => ?word, fun hunreset => pinWrite_of_unreset hunreset _,
    fun hreset => ⟨_, pinWrite_of_wasReset hreset _, rfl, ?txrdy, rfl, emitted_updateOutputs rfl, rfl, ?emissions⟩⟩
  case word => exact (decode_levelWord seq 0b001#3 v).trans (decode_pinWord seq _ v)
  case txrdy => exact (Bool.and_assoc _ _ _).symm
  case emissions =>
    intro hs
    refine emissions_of_others_settled (p := .txrdy) fun q hq => ?_
    have hout : s.out.get q = (levels s).get q := congrArg (OutLevels.get · q) hs
    cases q with
    | txrdy => exact absurd rfl hq
    | dtr | rts | txd | rxrdy | txempty | syndet => exact hout.symm

/-- A write of latches that no level reads: settled outputs stay as they are. -/
theorem updateOutputs_of_levels_eq {s latched : State} (hout : latched.out = s.out) (hlevels : levels latched = levels s)
    (hs : s.Settled) : (updateOutputs [] latched).events = [] ∧ (updateOutputs [] latched).out = s.out :=
  ⟨emissions_settled (hout.trans (hs.trans hlevels.symm)), hlevels.trans hs.symm⟩

/-- Settles O24: no level reads the DSR or the RXD latch. -/
theorem quietPinWrites : Obligations.QuietPinWrites := by
  intro v s
  refine ⟨fun seq => ?words, fun hunreset => ?unreset, fun hreset => ?dsr, fun hreset => ?rxd⟩
  case words =>
    exact ⟨(decode_levelWord seq 0b010#3 v).trans (decode_pinWord seq _ v),
      (decode_levelWord seq 0b000#3 v).trans (decode_pinWord seq _ v)⟩
  case unreset => exact ⟨pinWrite_of_unreset hunreset _, pinWrite_of_unreset hunreset _⟩
  case dsr =>
    exact ⟨_, pinWrite_of_wasReset hreset _, rfl, rfl, emitted_updateOutputs rfl, rfl,
      updateOutputs_of_levels_eq rfl rfl⟩
  case rxd =>
    exact ⟨_, pinWrite_of_wasReset hreset _, rfl, rfl, emitted_updateOutputs rfl, rfl,
      updateOutputs_of_levels_eq rfl rfl⟩

end Sys2Proof.Machine
end

section
/-! PROOF. The transmitter (42_transmitter): DATA_W, the bit tick, PIN_TXC and TXRDY_R. -/

namespace Sys2Proof.Machine

/-! ### The flags of the transmitter (R130, R137, R138) -/

/-- R130 in terms of the command byte and the CTS latch, which is active low. -/
theorem txEnabled_iff (s : State) : txEnabled s = true ↔ s.cmd.getLsbD 0 = true ∧ s.pins.cts = false := by
  simp [txEnabled, cmdTxEn]

/-- R137 in terms of the holding register, the command byte and the CTS latch. -/
theorem txrdyLevel_iff (s : State) :
    txrdyLevel s = true ↔ s.thre = true ∧ s.cmd.getLsbD 0 = true ∧ s.pins.cts = false := by
  rw [txrdyLevel, Bool.and_eq_true, txEnabled_iff]

/-- A full holding register holds the TXRDY pin low, whatever TxEN and CTS say (R137). -/
theorem updateOutputs_txrdy_of_thr_full {forced : List OutPin} {s : State} (h : s.thre = false) :
    (updateOutputs forced s).out.txrdy = false := by
  simp [levels, txrdyLevel, h]

/-- A full holding register holds the TXEMPTY pin low, whatever the shift register does (R138). -/
theorem updateOutputs_txempty_of_thr_full {forced : List OutPin} {s : State} (h : s.thre = false) :
    (updateOutputs forced s).out.txempty = false := by
  simp [levels, txemptyLevel, h]

theorem flagAt_zero (b : Bit) : flagAt b 0 = if b then 0x01#8 else 0x00#8 := by
  cases b <;> rfl

/-! ### DATA_W (R131) -/

/-- An empty holding register takes the byte. -/
theorem exec_dataW_of_thr_empty {b : Byte} {s : State} (hreset : s.wasReset = true) (hthre : s.thre = true) :
    exec (.dataW b) s = .next (updateOutputs [] { s with thr := b, thre := false }) := by
  rw [exec, execDataW, if_pos hthre, busAccess_of_wasReset hreset]

/-- A full holding register keeps its byte. -/
theorem exec_dataW_of_thr_full {b : Byte} {s : State} (hreset : s.wasReset = true) (hthre : s.thre = false) :
    exec (.dataW b) s = .next (updateOutputs [] s) := by
  rw [exec, execDataW, hthre, if_neg Bool.false_ne_true, busAccess_of_wasReset hreset]

/-- Settles O25: an empty THR takes the byte and a full one keeps its own; THR is then full, which holds both levels low. -/
theorem dataWrite : Obligations.DataWrite := by
  intro b s
  refine ⟨fun seq => decode_dataWord seq b, fun hunreset => busAccess_of_unreset hunreset _, fun hreset => ?_⟩
  rcases Bool.eq_false_or_eq_true s.thre with hempty | hfull
  · exact ⟨_, exec_dataW_of_thr_empty hreset hempty, rfl, (if_pos hempty).symm, updateOutputs_txrdy_of_thr_full rfl,
      updateOutputs_txempty_of_thr_full rfl, rfl, emitted_updateOutputs rfl, rfl⟩
  · exact ⟨_, exec_dataW_of_thr_full hreset hfull, hfull, by simp [hfull], updateOutputs_txrdy_of_thr_full hfull,
      updateOutputs_txempty_of_thr_full hfull, rfl, emitted_updateOutputs rfl, rfl⟩

/-! ### The bit tick (R133) -/

/-- Shifting: the next bit of the frame goes to the line. -/
theorem txBitTick_of_bitsLeft {s : State} (h : s.tx.busy = true ∧ s.tx.pos < s.tx.frame.length) :
    ∃ b, s.tx.frame[s.tx.pos]? = some b
      ∧ txBitTick s = { s with tx := { s.tx with line := b, pos := s.tx.pos + 1 } } := by
  rcases txBitTick_cases s with ⟨b, -, hb, hs⟩ | ⟨hno, -⟩ | ⟨hno, -⟩
  · exact ⟨b, hb, hs⟩
  · exact absurd h hno
  · exact absurd h hno

/-- Loading: no frame bit is left, and an enabled transmitter has a byte waiting. -/
theorem txBitTick_of_load {s : State} (hno : ¬(s.tx.busy = true ∧ s.tx.pos < s.tx.frame.length))
    (hload : s.thre = false ∧ txEnabled s = true) : txBitTick s = txLoad s := by
  rw [txBitTick, if_neg hno, if_pos hload]

/-- Idle: no frame bit is left, and nothing can be loaded. -/
theorem txBitTick_of_idle {s : State} (hno : ¬(s.tx.busy = true ∧ s.tx.pos < s.tx.frame.length))
    (hload : ¬(s.thre = false ∧ txEnabled s = true)) : txBitTick s = { s with tx := .idle } := by
  rw [txBitTick, if_neg hno, if_neg hload]

/-- A frame is never empty, so a load drives its bit 0 and not the mark that the model's `headD` falls back to. -/
theorem txFrameOf_head (c m : Byte) : (txFrameOf c m)[0]? = some ((txFrameOf c m).headD true) := by
  cases hframe : txFrameOf c m with
  | nil => simpa [hframe] using (txFrameOf_bounds c m).1
  | cons b rest => rfl

/-- Settles O26: one lemma for each branch, with the frame's bit 0 for the load. -/
theorem bitTick : Obligations.BitTick := by
  intro s
  refine ⟨fun hbusy hpos => txBitTick_of_bitsLeft ⟨hbusy, hpos⟩, ?load, ?idle⟩
  case load =>
    intro hno hfull hTxEn hcts
    exact ⟨_, txFrameOf_head s.thr s.mode, txBitTick_of_load hno ⟨hfull, (txEnabled_iff s).2 ⟨hTxEn, hcts⟩⟩⟩
  case idle =>
    intro hno hload
    exact txBitTick_of_idle hno (by rwa [txEnabled_iff])

/-! ### PIN_TXC (R132) -/

/-- A falling edge below the factor only counts. -/
theorem txcFalling_of_lt {s : State} (h : s.txDiv + 1 < factor s.mode) :
    txcFalling s = { s with txDiv := s.txDiv + 1 } :=
  if_neg (Nat.not_le.2 h)

/-- The falling edge that reaches the factor clears the divider and is a bit tick. -/
theorem txcFalling_of_le {s : State} (h : factor s.mode ≤ s.txDiv + 1) :
    txcFalling s = txBitTick { s with txDiv := 0 } :=
  if_pos h

/-- A state that already has the output side of `s` takes it unchanged. -/
theorem withOutputsOf_eq_self {t s : State} (hout : t.out = s.out) (hevents : t.events = s.events)
    (hvalue : t.value = s.value) : t.withOutputsOf s = t := by
  rw [State.withOutputsOf, ← hout, ← hevents, ← hvalue]

/-- Settles O27: the edge and the divider select the branch, and `update_outputs` after it touches the output side only. -/
theorem txClockWrite : Obligations.TxClockWrite := by
  intro v s
  refine ⟨fun seq => ?word, fun hunreset => pinWrite_of_unreset hunreset _,
    fun hreset => ⟨_, pinWrite_of_wasReset hreset _, ?noEdge, ?counted, ?tick,
      emitted_updateOutputs (by split <;> simp), rfl⟩⟩
  case word => exact (decode_levelWord seq 0b011#3 v).trans (decode_pinWord seq _ v)
  case noEdge =>
    intro hno
    rw [updateOutputs_withOutputsOf, if_neg hno]
    rfl
  case counted =>
    intro htxc hv hlt
    rw [updateOutputs_withOutputsOf, if_pos ⟨htxc, hv⟩,
      txcFalling_of_lt (s := { s with pins := { s.pins with txc := v } }) hlt]
    rfl
  case tick =>
    intro htxc hv hle
    rw [updateOutputs_withOutputsOf, if_pos ⟨htxc, hv⟩,
      txcFalling_of_le (s := { s with pins := { s.pins with txc := v } }) hle]
    exact withOutputsOf_eq_self (by simp) (by simp) (by simp)

/-! ### TXRDY_R (R139) -/

/-- Settles O33: the value is the TXRDY level, which is the pin's own when the outputs stand at their levels. -/
theorem txrdyRead : Obligations.TxrdyRead := by
  refine ⟨fun seq => decode_busReadWord seq 0b11#2, fun s => ⟨fun hunreset => busAccess_of_unreset hunreset _,
    fun hreset => ⟨_, busAccess_of_wasReset hreset _, ?value, ?pin, rfl, rfl⟩⟩⟩
  case value => simp only [returning_value, flagAt_zero, txrdyLevel_iff]
  case pin =>
    intro hs
    have htxrdy : s.out.txrdy = txrdyLevel s := congrArg OutLevels.txrdy hs
    rw [returning_value, flagAt_zero, htxrdy]

end Sys2Proof.Machine
end

section
/-! PROOF. The receiver (43_receiver): the asynchronous sample and its frame bits, the synchronous sample and the sync pattern, and
the stimuli PIN_RXC, PIN_SYN and DATA_R. -/

namespace Sys2Proof.Machine

/-! ### The asynchronous sample (R152, R153) -/

/-- Only at ×1 does half a bit time round down to no sample at all. -/
theorem factor_half_eq_zero_iff (m : Byte) : factor m / 2 = 0 ↔ factor m = 1 := by
  rcases factor_cases m with h | h | h <;> simp [h]

/-- A wait above 1 counts down, in the start bit as in the frame. -/
theorem rxAsyncSample_of_waiting {v : Bit} {s : State} (hstate : s.rx.state ≠ .idle) (hwait : 2 ≤ s.rx.wait) :
    rxAsyncSample v s = { s with rx := { s.rx with wait := s.rx.wait - 1 } } := by
  have hleft : ¬(s.rx.wait - 1 = 0) := by omega
  cases h : s.rx.state with
  | idle => exact absurd h hstate
  | start => simp only [rxAsyncSample, h, if_neg hleft]
  | frame => simp only [rxAsyncSample, h, if_neg hleft]

theorem rxAsyncSample_of_startCentre {v : Bit} {s : State} (hstate : s.rx.state = .start) (hwait : s.rx.wait = 1) :
    rxAsyncSample v s = rxStartCentre v s := by
  simp [rxAsyncSample, hstate, hwait]

theorem rxAsyncSample_of_bitCentre {v : Bit} {s : State} (hstate : s.rx.state = .frame) (hwait : s.rx.wait = 1) :
    rxAsyncSample v s = rxFrameBit v s := by
  simp [rxAsyncSample, hstate, hwait]

/-- Settles O35: the receiver state selects the branch, then the wait; at ×1 the start bit is detected at its centre. -/
theorem asyncStartDetection : Obligations.AsyncStartDetection := by
  intro v s
  refine ⟨?mark, ?startAtX1, ?start, rxAsyncSample_of_waiting, ?falseStart, ?frame, rxAsyncSample_of_bitCentre⟩
  case mark =>
    rintro hidle rfl
    simp [rxAsyncSample, hidle]
  case startAtX1 =>
    rintro hidle rfl hfactor
    simp [rxAsyncSample, hidle, rxStartCentre, hfactor]
  case start =>
    rintro hidle rfl hfactor
    have hhalf : ¬(factor s.mode / 2 = 0) := mt (factor_half_eq_zero_iff s.mode).1 hfactor
    simp only [rxAsyncSample, hidle, if_neg hhalf, Bool.false_eq_true, if_false]
  case falseStart =>
    rintro hstart hwait rfl
    exact rxAsyncSample_of_startCentre hstart hwait
  case frame =>
    rintro hstart hwait rfl
    exact rxAsyncSample_of_startCentre hstart hwait

/-! ### What the codec reads from the collected bits (44_codec R185) -/

/-- A character fits the byte it is delivered in. -/
theorem rxData_toNat (m : Byte) (l : List Bit) : (rxData m l).toNat = valueOf (l.take (nbits m)) := by
  have hlt : valueOf (l.take (nbits m)) < 2 ^ 8 := calc
    valueOf (l.take (nbits m)) < 2 ^ (l.take (nbits m)).length := valueOf_lt _
    _ ≤ 2 ^ 8 := Nat.pow_le_pow_right (by decide) ((List.length_take_le _ _).trans (nbits_bounds m).2)
  rw [rxData, BitVec.toNat_ofNat, Nat.mod_eq_of_lt hlt]

/-- Under PEN the bit after the data bits is the parity bit; without PEN the check cannot fail (R181). -/
theorem not_rxParOk {m : Byte} {l : List Bit} {b : Bit} (h : pen m = true → l[nbits m]? = some b) :
    (!rxParOk m l) = (pen m && b != parityBit (rxData m l) (nbits m) (even m)) := by
  cases hpen : pen m with
  | false => simp [rxParOk, hpen]
  | true => simp [rxParOk, hpen, h hpen, bne]

/-! ### The frame bit (R154, R155, R156) -/

theorem rxFrameBit_of_partial {v : Bit} {s : State} (h : s.rx.bits.length ≠ nbits s.mode + parityBits s.mode) :
    rxFrameBit v s = { s with rx := { s.rx with bits := s.rx.bits ++ [v], wait := factor s.mode } } :=
  if_neg (by simpa using h)

theorem rxFrameBit_of_stopBit {v : Bit} {s : State} (h : s.rx.bits.length = nbits s.mode + parityBits s.mode) :
    rxFrameBit v s = rxAsyncComplete (s.rx.bits ++ [v]) s :=
  if_pos (by simpa using h)

/-- Settles O36: the bit after the data and parity bits is the stop bit, which ends the character and is its framing check. -/
theorem asyncFrameBit : Obligations.AsyncFrameBit := by
  intro v s hasync
  refine ⟨rxFrameBit_of_partial, fun hlen => ⟨rxData s.mode (s.rx.bits ++ [v]), ?data, ?character⟩⟩
  case data =>
    rw [rxData_toNat, List.take_append_of_le_length (by omega)]
  case character =>
    have hframing : rxFrameOk s.mode (s.rx.bits ++ [v]) = v := by
      simp [rxFrameOk, hasync, ← hlen]
    have hparity : (!rxParOk s.mode (s.rx.bits ++ [v])) = (pen s.mode && s.rx.bits[nbits s.mode]?
        != some (parityBit (rxData s.mode (s.rx.bits ++ [v])) (nbits s.mode) (even s.mode))) := by
      cases hpen : pen s.mode with
      | false => simp [rxParOk, hpen]
      | true =>
        have hlt : nbits s.mode < s.rx.bits.length := by simp [hlen, parityBits, hpen]
        rw [not_rxParOk fun _ => (List.getElem?_append_left hlt).trans (List.getElem?_eq_getElem hlt),
          List.getElem?_eq_getElem hlt, hpen]
        simp [bne]
    simp only [rxFrameBit_of_stopBit hlen, rxAsyncComplete, rxComplete, hframing, hparity, RxAssembly.idle]

/-! ### The synchronous sample (R157, R159) -/

theorem rxSyncSample_of_hunt {v : Bit} {s : State} (hhunt : s.hunt = true) : rxSyncSample v s = rxHuntSample v s :=
  if_pos hhunt

theorem rxHuntSample_of_esd {v : Bit} {s : State} (hesd : esd s.mode = true) : rxHuntSample v s = s :=
  if_pos hesd

theorem rxHuntSample_of_match {v : Bit} {s : State} (hesd : esd s.mode = false)
    (hmatch : huntWindow v s = syncPattern s) : rxHuntSample v s = declareSync s := by
  simp [rxHuntSample, hesd, hmatch]

theorem rxHuntSample_of_no_match {v : Bit} {s : State} (hesd : esd s.mode = false)
    (hmatch : huntWindow v s ≠ syncPattern s) : rxHuntSample v s = { s with huntHist := huntWindow v s } := by
  simp [rxHuntSample, hesd, hmatch]

theorem rxSyncSample_of_partial {v : Bit} {s : State} (hhunt : s.hunt = false)
    (hlen : s.rx.bits.length + 1 ≠ nbits s.mode + parityBits s.mode) :
    rxSyncSample v s = { s with rx := { s.rx with bits := s.rx.bits ++ [v] } } := by
  simp [rxSyncSample, hhunt, hlen]

theorem rxSyncSample_of_lastBit {v : Bit} {s : State} (hhunt : s.hunt = false)
    (hlen : s.rx.bits.length + 1 = nbits s.mode + parityBits s.mode) :
    rxSyncSample v s = rxSyncComplete (s.rx.bits ++ [v]) s := by
  simp [rxSyncSample, hhunt, hlen]

/-- Settles O37: one lemma for each branch; under PEN the last bit of a character is its parity bit. -/
theorem syncSample : Obligations.SyncSample := by
  intro v s
  refine ⟨fun hhunt hesd => (rxSyncSample_of_hunt hhunt).trans (rxHuntSample_of_esd hesd),
    fun hhunt hesd hmatch => (rxSyncSample_of_hunt hhunt).trans (rxHuntSample_of_match hesd hmatch),
    fun hhunt hesd hmatch => (rxSyncSample_of_hunt hhunt).trans (rxHuntSample_of_no_match hesd hmatch),
    rxSyncSample_of_partial, fun hhunt hlen => ⟨rxData s.mode (s.rx.bits ++ [v]), rxData_toNat _ _, ?_⟩⟩
  have hlast : pen s.mode = true → (s.rx.bits ++ [v])[nbits s.mode]? = some v := by
    intro hpen
    have hbits : s.rx.bits.length = nbits s.mode := by simpa [parityBits, hpen] using hlen
    simp [← hbits]
  simp only [rxSyncSample_of_lastBit hhunt hlen, rxSyncComplete, rxComplete, not_rxParOk hlast, Bool.or_false]

/-! ### The sync pattern (R158) -/

theorem nsync_cases (m : Byte) : nsync m = 0 ∨ nsync m = 1 ∨ nsync m = 2 := by
  unfold nsync
  repeat' split
  all_goals simp

/-- Settles O38: the pattern is one or two characters as they stand on the wire, of `n + p` bits each. -/
theorem syncPatternShape : Obligations.SyncPatternShape := by
  intro s
  have hlength := syncPattern_length s
  refine ⟨fun hsingle => ⟨?_, ?_⟩, fun hdouble => ⟨?_, ?_⟩, fun hsync => ?_⟩
  · rw [syncPattern, if_pos hsingle, charBits]
  · rw [hlength, hsingle, Nat.one_mul]
  · rw [syncPattern, if_neg (by simp [hdouble]), if_pos hdouble, charBits, charBits]
  · rw [hlength, hdouble]
  · have hnbits := nbits_bounds s.mode
    have hparity := parityBits_le s.mode
    rcases nsync_cases s.mode with h | h | h
    · exact absurd h hsync
    · rw [hlength, h]; omega
    · rw [hlength, h]; omega

/-! ### The receiver's stimuli: PIN_RXC (R151), PIN_SYN (R160) and DATA_R (R161) -/

theorem rxSample_of_sync (v : Bit) {s : State} (h : syncMode s.mode = true) : rxSample v s = rxSyncSample v s :=
  if_pos h

theorem rxSample_of_async (v : Bit) {s : State} (h : syncMode s.mode = false) : rxSample v s = rxAsyncSample v s := by
  simp [rxSample, h]

/-- A sample leaves the output side to the `update_outputs` after it. -/
theorem rxSample_withOutputsOf {v : Bit} {s s' : State} (hout : s'.out = s.out) (hevents : s'.events = s.events)
    (hvalue : s'.value = s.value) : (rxSample v s').withOutputsOf s = rxSample v s' :=
  withOutputsOf_eq_self (by simp [hout]) (by simp [hevents]) (by simp [hvalue])

/-- Settles O34: the edge and RxE decide whether there is a sample, and the mode decides which. -/
theorem rxClockWrite : Obligations.RxClockWrite := by
  intro v s
  refine ⟨fun seq => ?word, fun hunreset => pinWrite_of_unreset hunreset _,
    fun hreset => ⟨_, pinWrite_of_wasReset hreset _, ?noSample, ?sync, ?async,
      emitted_updateOutputs (by split <;> simp), rfl⟩⟩
  case word => exact (decode_levelWord seq 0b100#3 v).trans (decode_pinWord seq _ v)
  case noSample =>
    intro (hno : ¬(s.pins.rxc = false ∧ v = true ∧ cmdRxE s.cmd = true))
    rw [updateOutputs_withOutputsOf, if_neg hno]
    rfl
  case sync =>
    intro hrxc hv hRxE hmode
    rw [updateOutputs_withOutputsOf, if_pos ⟨hrxc, hv, hRxE⟩]
    exact (rxSample_withOutputsOf rfl rfl rfl).trans (rxSample_of_sync _ hmode)
  case async =>
    intro hrxc hv hRxE hmode
    rw [updateOutputs_withOutputsOf, if_pos ⟨hrxc, hv, hRxE⟩]
    exact (rxSample_withOutputsOf rfl rfl rfl).trans (rxSample_of_async _ hmode)

/-- Settles O40: the edge, ESD, hunt and RxE decide whether sync is declared. -/
theorem externalSync : Obligations.ExternalSync := by
  intro v s
  refine ⟨fun seq => ?word, fun hunreset => pinWrite_of_unreset hunreset _,
    fun hreset => ⟨_, pinWrite_of_wasReset hreset _, ?declared, ?latched,
      emitted_updateOutputs (by split <;> rfl), rfl⟩⟩
  case word => exact (decode_levelWord seq 0b101#3 v).trans (decode_pinWord seq _ v)
  case declared =>
    intro (hdeclared : s.pins.syn = false ∧ v = true ∧ esd s.mode = true ∧ s.hunt = true ∧ cmdRxE s.cmd = true)
    rw [updateOutputs_withOutputsOf, if_pos hdeclared]
    rfl
  case latched =>
    intro (hno : ¬(s.pins.syn = false ∧ v = true ∧ esd s.mode = true ∧ s.hunt = true ∧ cmdRxE s.cmd = true))
    rw [updateOutputs_withOutputsOf, if_neg hno]
    rfl

/-- Settles O41: the parameter decides whether rx-ready is cleared before the outputs are updated. -/
theorem dataRead : Obligations.DataRead := by
  refine ⟨fun seq => decode_busReadWord seq 0b00#2, fun s => ⟨fun hunreset => busAccess_of_unreset hunreset _,
    fun hreset => ⟨_, busAccess_of_wasReset hreset _, rfl, ?rxrdy, ?frame, ?outputs⟩⟩⟩
  case rxrdy =>
    rw [returning_rxrdy, updateOutputs_rxrdy]
    split <;> rfl
  case frame => split <;> rfl
  case outputs => exact emitted_returning (emitted_updateOutputs (by split <;> rfl))

/-! ### Sync detect (R162) -/

/-- A bit sampled in internal hunt completes the sync pattern (R157). -/
abbrev SyncFound (v : Bit) (s : State) : Prop :=
  syncMode s.mode = true ∧ esd s.mode = false ∧ s.hunt = true ∧ huntWindow v s = syncPattern s

/-- The stimulus declares sync, by an internal pattern match (R157) or by an external declaration (R160). -/
abbrev DeclaresSync (i : Instr) (s : State) : Prop :=
  (i = .pinRxc true ∧ s.pins.rxc = false ∧ s.cmd.getLsbD 2 = true ∧ SyncFound s.pins.rxd s)
    ∨ (i = .pinSyn true ∧ s.pins.syn = false ∧ s.cmd.getLsbD 2 = true ∧ esd s.mode = true ∧ s.hunt = true)

/-- The stimulus clears sync detect: EH in sync mode (R113), MODE_W (R101) and the two resets (R231). -/
abbrev ClearsSyndet (i : Instr) (s : State) : Prop :=
  (∃ b, i = .cmdW b ∧ b.getLsbD 7 = true ∧ syncMode s.mode = true)
    ∨ (∃ b, i = .modeW b) ∨ (∃ b, i = .cmdIr b) ∨ i = .reset

theorem not_clearsSyndet_of_declaresSync {i : Instr} {s : State} (h : DeclaresSync i s) : ¬ClearsSyndet i s := by
  rcases h with ⟨rfl, -⟩ | ⟨rfl, -⟩ <;> simp [ClearsSyndet]

theorem rxAsyncSample_syndet (v : Bit) (s : State) : (rxAsyncSample v s).syndet = s.syndet := by
  unfold rxAsyncSample rxStartCentre rxFrameBit
  repeat' split
  all_goals rfl

/-- A sample declares sync when it finds the pattern, and leaves sync detect alone otherwise. -/
theorem rxSample_syndet_cases (v : Bit) (s : State) :
    (SyncFound v s ∧ rxSample v s = declareSync s) ∨ (¬SyncFound v s ∧ (rxSample v s).syndet = s.syndet) := by
  cases hmode : syncMode s.mode with
  | false => exact .inr ⟨by simp [SyncFound, hmode], by rw [rxSample_of_async v hmode, rxAsyncSample_syndet]⟩
  | true =>
    rw [rxSample_of_sync v hmode]
    cases hhunt : s.hunt with
    | false =>
      refine .inr ⟨by simp [SyncFound, hhunt], ?_⟩
      by_cases hlen : s.rx.bits.length + 1 = nbits s.mode + parityBits s.mode
      · rw [rxSyncSample_of_lastBit hhunt hlen]; rfl
      · rw [rxSyncSample_of_partial hhunt hlen]
    | true =>
      rw [rxSyncSample_of_hunt hhunt]
      cases hesd : esd s.mode with
      | true => exact .inr ⟨by simp [SyncFound, hesd], by rw [rxHuntSample_of_esd hesd]⟩
      | false =>
        by_cases hmatch : huntWindow v s = syncPattern s
        · exact .inl ⟨⟨hmode, hesd, hhunt, hmatch⟩, rxHuntSample_of_match hesd hmatch⟩
        · refine .inr ⟨fun ⟨_, _, _, h⟩ => hmatch h, ?_⟩
          rw [rxHuntSample_of_no_match hesd hmatch]

theorem pinWrite_syndet {s latched after t : State} (h : pinWrite latched after = .next t)
    (hlatched : latched.syndet = s.syndet) (hafter : after.syndet = s.syndet) : t.syndet = s.syndet := by
  rcases pinWrite_next.1 h with ⟨-, rfl⟩ | ⟨-, rfl⟩
  · exact hafter
  · exact hlatched

theorem declaresSync_pinRxc {v : Bit} {s : State} :
    DeclaresSync (.pinRxc v) s ↔
      (s.pins.rxc = false ∧ v = true ∧ cmdRxE s.cmd = true) ∧ SyncFound s.pins.rxd s := by
  simp only [DeclaresSync, cmdRxE, Instr.pinRxc.injEq, reduceCtorEq, false_and, or_false]
  tauto

theorem declaresSync_pinSyn {v : Bit} {s : State} :
    DeclaresSync (.pinSyn v) s ↔
      s.pins.syn = false ∧ v = true ∧ esd s.mode = true ∧ s.hunt = true ∧ cmdRxE s.cmd = true := by
  simp only [DeclaresSync, cmdRxE, Instr.pinSyn.injEq, reduceCtorEq, false_and, false_or]
  tauto

/-- PIN_RXC declares sync by a sample that finds the pattern, and by nothing else. -/
theorem exec_pinRxc_syndet {v : Bit} {s t : State} (h : exec (.pinRxc v) s = .next t) :
    (DeclaresSync (.pinRxc v) s ∧ t.syndet = true ∧ t.hunt = false)
      ∨ (¬(s.wasReset = true ∧ DeclaresSync (.pinRxc v) s) ∧ t.syndet = s.syndet) := by
  rw [declaresSync_pinRxc]
  rcases pinWrite_next.1 h with ⟨-, rfl⟩ | ⟨hunreset, rfl⟩
  · by_cases hsample : s.pins.rxc = false ∧ v = true ∧ cmdRxE s.cmd = true
    · rw [if_pos hsample]
      rcases rxSample_syndet_cases s.pins.rxd { s with pins := { s.pins with rxc := v } }
        with ⟨hfound, hdeclare⟩ | ⟨hnot, hsame⟩
      · rw [hdeclare]
        exact .inl ⟨⟨hsample, hfound⟩, rfl, rfl⟩
      · exact .inr ⟨fun ⟨_, _, hfound⟩ => hnot hfound, hsame⟩
    · rw [if_neg hsample]
      exact .inr ⟨fun ⟨_, hyes, _⟩ => hsample hyes, rfl⟩
  · exact .inr ⟨fun ⟨hreset, _⟩ => Bool.false_ne_true (hunreset.symm.trans hreset), rfl⟩

/-- PIN_SYN declares sync by a rising edge in external hunt with RxE set, and by nothing else. -/
theorem exec_pinSyn_syndet {v : Bit} {s t : State} (h : exec (.pinSyn v) s = .next t) :
    (DeclaresSync (.pinSyn v) s ∧ t.syndet = true ∧ t.hunt = false)
      ∨ (¬(s.wasReset = true ∧ DeclaresSync (.pinSyn v) s) ∧ t.syndet = s.syndet) := by
  rw [declaresSync_pinSyn]
  rcases pinWrite_next.1 h with ⟨-, rfl⟩ | ⟨hunreset, rfl⟩
  · by_cases hedge : s.pins.syn = false ∧ v = true ∧ esd s.mode = true ∧ s.hunt = true ∧ cmdRxE s.cmd = true
    · rw [if_pos hedge]
      exact .inl ⟨hedge, rfl, rfl⟩
    · rw [if_neg hedge]
      exact .inr ⟨fun ⟨_, hyes⟩ => hedge hyes, rfl⟩
  · exact .inr ⟨fun ⟨hreset, _⟩ => Bool.false_ne_true (hunreset.symm.trans hreset), rfl⟩

/-- What a stimulus can do to sync detect: declare sync, which ends hunt; clear it; or keep it. -/
theorem exec_syndet_cases {i : Instr} {s t : State} (h : exec i s = .next t) :
    (DeclaresSync i s ∧ t.syndet = true ∧ t.hunt = false)
      ∨ (ClearsSyndet i s ∧ t.syndet = false)
      ∨ (¬(s.wasReset = true ∧ DeclaresSync i s) ∧ ¬ClearsSyndet i s ∧ t.syndet = s.syndet) := by
  cases i with
  | modeW | cmdIr =>
    obtain ⟨-, rfl⟩ := busAccess_next.1 h
    exact .inr (.inl ⟨by simp [ClearsSyndet], rfl⟩)
  | reset =>
    obtain rfl := Host.Outcome.next.inj h
    exact .inr (.inl ⟨by simp [ClearsSyndet], rfl⟩)
  | cmdW b =>
    obtain ⟨-, rfl⟩ := busAccess_next.1 h
    by_cases hEh : cmdEh b = true ∧ syncMode s.mode = true
    · exact .inr (.inl ⟨.inl ⟨b, rfl, hEh⟩, (applyCommand_syndet b s).trans (if_pos hEh)⟩)
    · refine .inr (.inr ⟨by simp [DeclaresSync], ?_, (applyCommand_syndet b s).trans (if_neg hEh)⟩)
      simpa [ClearsSyndet, cmdEh] using hEh
  | sync1W | sync2W | statusR | txrdyR =>
    obtain ⟨-, rfl⟩ := busAccess_next.1 h
    exact .inr (.inr ⟨by simp [DeclaresSync], by simp [ClearsSyndet], rfl⟩)
  | dataW | dataR =>
    obtain ⟨-, rfl⟩ := busAccess_next.1 h
    refine .inr (.inr ⟨by simp [DeclaresSync], by simp [ClearsSyndet], ?_⟩)
    simp only [returning_syndet, updateOutputs_syndet]
    split <;> rfl
  | maskW | maskR =>
    obtain ⟨-, -, rfl⟩ := maskPort_next.1 h
    exact .inr (.inr ⟨by simp [DeclaresSync], by simp [ClearsSyndet], rfl⟩)
  | pinRxd | pinCts | pinDsr =>
    exact .inr (.inr ⟨by simp [DeclaresSync], by simp [ClearsSyndet], pinWrite_syndet h rfl rfl⟩)
  | pinTxc =>
    exact .inr (.inr ⟨by simp [DeclaresSync], by simp [ClearsSyndet],
      pinWrite_syndet h rfl (by rw [updateOutputs_syndet]; split <;> simp)⟩)
  | pinRxc v => exact (exec_pinRxc_syndet h).imp_right fun ⟨hno, hsame⟩ => .inr ⟨hno, by simp [ClearsSyndet], hsame⟩
  | pinSyn v => exact (exec_pinSyn_syndet h).imp_right fun ⟨hno, hsame⟩ => .inr ⟨hno, by simp [ClearsSyndet], hsame⟩

/-- Settles O42: the three things a stimulus can do to sync detect, of which no two can be done at once. -/
theorem syndetLifecycle : Obligations.SyndetLifecycle := by
  intro i s t h
  rcases exec_syndet_cases h with ⟨hdeclares, hset, hhunt⟩ | ⟨hclears, hcleared⟩ | ⟨hno, hkept, hsame⟩
  · exact ⟨fun _ _ => iff_of_true hset hdeclares, fun _ _ => hhunt,
      fun _ => iff_of_false (by simp [hset]) (not_clearsSyndet_of_declaresSync hdeclares)⟩
  · exact ⟨fun _ _ => iff_of_false (by simp [hcleared]) fun hdeclares => not_clearsSyndet_of_declaresSync hdeclares hclears,
      fun _ hset => absurd hset (by simp [hcleared]), fun _ => iff_of_true hcleared hclears⟩
  · exact ⟨fun hreset hclear => iff_of_false (by simp [hsame, hclear]) fun hdeclares => hno ⟨hreset, hdeclares⟩,
      fun hclear hset => absurd hset (by simp [hsame, hclear]), fun hset => iff_of_false (by simp [hsame, hset]) hkept⟩

end Sys2Proof.Machine
end

section
/-! PROOF. The codec (44_codec): the parity bit, the mode byte's parity-sense bit EP, and the fields of a transmitted frame. -/

namespace Sys2Proof.Machine

/-! ### The parity bit (R180) -/

/-- The bits at and above the character length are not counted. -/
theorem popcountLow_congr {c c' : Byte} {n : Nat} (h : ∀ k, k < n → c'.getLsbD k = c.getLsbD k) :
    popcountLow c' n = popcountLow c n :=
  congrArg (List.count true) (List.map_congr_left fun k hk => h k (List.mem_range.1 hk))

/-- The parity bit brings the count of ones to the configured parity, whatever the count of ones in the data is. -/
theorem popcountLow_add_parityBit (c : Byte) (n : Nat) (ev : Bool) :
    (popcountLow c n + (parityBit c n ev).toNat) % 2 = if ev then 0 else 1 := by
  rcases Nat.mod_two_eq_zero_or_one (popcountLow c n) with hcount | hcount <;>
    cases ev <;> simp [parityBit, hcount, Nat.add_mod]

/-- Settles O47: the total by the parity of the data's own count, and the low bits by `popcountLow_congr`. -/
theorem parityTotals : Obligations.ParityTotals := by
  intro c n ev
  refine ⟨rfl, popcountLow_add_parityBit c n ev, fun c' hlow => ?_⟩
  rw [parityBit, popcountLow_congr hlow, parityBit]

/-! ### No parity (R181) -/

theorem charBits_of_no_pen (c : Byte) {m : Byte} (h : pen m = false) : charBits c m = bitsOf c (nbits m) := by
  simp [charBits, h]

theorem rxParOk_of_no_pen {m : Byte} (l : List Bit) (h : pen m = false) : rxParOk m l = true := by
  simp [rxParOk, h]

/-- EP is bit 5 of the mode byte, so flipping it leaves every other bit. -/
theorem getLsbD_flipEp (m : Byte) {k : Nat} (h : k ≠ 5) : (m ^^^ 0x20#8).getLsbD k = m.getLsbD k := by
  have hbit : (0x20#8).getLsbD k = false := by
    rw [show 0x20#8 = BitVec.twoPow 8 5 from rfl, BitVec.getLsbD_twoPow]
    simp [h.symm]
  rw [BitVec.getLsbD_xor, hbit, Bool.xor_false]

/-! The shape of a frame reads bits 0 to 4, 6 and 7 of the mode byte; EP gives the parity bit's sense only. -/

@[simp] theorem syncMode_flipEp (m : Byte) : syncMode (m ^^^ 0x20#8) = syncMode m := by
  rw [Bool.eq_iff_iff, syncMode_iff, syncMode_iff, getLsbD_flipEp m (by decide), getLsbD_flipEp m (by decide)]

@[simp] theorem nbits_flipEp (m : Byte) : nbits (m ^^^ 0x20#8) = nbits m := by
  rw [nbits_eq, nbits_eq, getLsbD_flipEp m (by decide), getLsbD_flipEp m (by decide)]

@[simp] theorem pen_flipEp (m : Byte) : pen (m ^^^ 0x20#8) = pen m :=
  getLsbD_flipEp m (by decide)

@[simp] theorem stops_flipEp (m : Byte) : stops (m ^^^ 0x20#8) = stops m := by
  rw [stops_eq, stops_eq, getLsbD_flipEp m (by decide)]

theorem charBits_flipEp (c : Byte) {m : Byte} (h : pen m = false) : charBits c (m ^^^ 0x20#8) = charBits c m := by
  rw [charBits_of_no_pen c ((pen_flipEp m).trans h), charBits_of_no_pen c h, nbits_flipEp]

/-- Settles O48: without PEN the parity bit, the one part of a frame that reads EP, is not there. -/
theorem noParity : Obligations.NoParity := by
  intro c m hpen
  refine ⟨charBits_of_no_pen c hpen, fun l => rxParOk_of_no_pen l hpen, ?_⟩
  rw [txFrameOf, txFrameOf, syncMode_flipEp, charBits_flipEp c hpen, stops_flipEp]

/-! ### The fields of a frame (R182, R183, R184) -/

/-- The data bits come first, least significant bit first. -/
theorem charBits_data (c : Byte) {m : Byte} {k : Nat} (h : k < nbits m) : (charBits c m)[k]? = some (c.getLsbD k) := by
  rw [charBits, List.getElem?_append_left (by simpa using h), bitsOf_getElem? c h]

/-- Under PEN the parity bit follows the data bits. -/
theorem charBits_parity (c : Byte) {m : Byte} (h : pen m = true) :
    (charBits c m)[nbits m]? = some (parityBit c (nbits m) (even m)) := by
  simp [charBits, h]

theorem txFrameOf_of_sync (c : Byte) {m : Byte} (h : syncMode m = true) : txFrameOf c m = charBits c m :=
  if_pos h

theorem txFrameOf_of_async (c : Byte) {m : Byte} (h : syncMode m = false) :
    txFrameOf c m = false :: (charBits c m ++ List.replicate (stops m) true) := by
  simp [txFrameOf, h]

/-- After the start bit of an asynchronous frame come the character's bits. -/
theorem txFrameOf_async_char (c : Byte) {m : Byte} {k : Nat} {b : Bit} (h : syncMode m = false)
    (hk : (charBits c m)[k]? = some b) : (txFrameOf c m)[1 + k]? = some b := by
  rw [txFrameOf_of_async c h, Nat.add_comm, List.getElem?_cons_succ,
    List.getElem?_append_left (List.getElem?_eq_some_iff.1 hk).1, hk]

/-- After the character's bits come the stop bits. -/
theorem txFrameOf_async_stop (c : Byte) {m : Byte} {k : Nat} (h : syncMode m = false) (hk : k < stops m) :
    (txFrameOf c m)[1 + nbits m + parityBits m + k]? = some true := by
  have hindex : 1 + nbits m + parityBits m + k = ((charBits c m).length + k) + 1 := by
    rw [charBits_length]
    omega
  rw [txFrameOf_of_async c h, hindex, List.getElem?_cons_succ, List.getElem?_append_right (Nat.le_add_right _ _),
    Nat.add_sub_cancel_left, List.getElem?_replicate_of_lt hk]

/-- Settles O49: a sync frame is the character, an async frame the character between its start bit and its stop bits. -/
theorem frameShape : Obligations.FrameShape := by
  intro c m
  have hnbits := nbits_bounds m
  have hparity := parityBits_le m
  have hstops := stops_cases m
  refine ⟨fun hsync => ?sync, fun hasync => ?async, fun hbit => ?oneStop, fun hbit => ?twoStops⟩
  case sync =>
    rw [txFrameOf_of_sync c hsync, charBits_length]
    exact ⟨rfl, fun k hk => charBits_data c hk, fun hpen => charBits_parity c hpen, by omega, by omega⟩
  case async =>
    have hlen : (txFrameOf c m).length = 1 + nbits m + parityBits m + stops m := by
      rw [txFrameOf_length, hasync, if_neg Bool.false_ne_true]
    exact ⟨hlen, by rw [txFrameOf_of_async c hasync, List.getElem?_cons_zero],
      fun k hk => txFrameOf_async_char c hasync (charBits_data c hk),
      fun hpen => txFrameOf_async_char c hasync (charBits_parity c hpen),
      fun k hk => txFrameOf_async_stop c hasync hk, by omega, by omega⟩
  case oneStop => rw [stops_eq, hbit, if_neg Bool.false_ne_true]
  case twoStops => rw [stops_eq, hbit, if_pos rfl]

end Sys2Proof.Machine
end

section
/-! SUPPORT. The receive data register and rx-ready (43_receiver R156, 45_status_outputs R193): what a sample and what a stimulus can
do to them. -/

namespace Sys2Proof.Machine

/-- One more sample completes a character. A wait of 0, which no run reaches, acts as 1 (log entry 10). -/
abbrev State.LastSample (s : State) : Prop :=
  (syncMode s.mode = true → s.hunt = false ∧ s.rx.bits.length + 1 = nbits s.mode + parityBits s.mode)
    ∧ (syncMode s.mode = false →
        s.rx.state = .frame ∧ s.rx.wait ≤ 1 ∧ s.rx.bits.length = nbits s.mode + parityBits s.mode)

/-- The received character, rx-ready and the sticky errors are the same. -/
abbrev SameCharacter (s t : State) : Prop :=
  t.rdr = s.rdr ∧ t.rxrdy = s.rxrdy ∧ t.pe = s.pe ∧ t.oe = s.oe ∧ t.fe = s.fe

/-! ### A receiver sample -/

theorem rxStartCentre_sameCharacter (v : Bit) (s : State) : SameCharacter s (rxStartCentre v s) := by
  cases v <;> exact ⟨rfl, rfl, rfl, rfl, rfl⟩

theorem rxHuntSample_sameCharacter (v : Bit) (s : State) : SameCharacter s (rxHuntSample v s) := by
  unfold rxHuntSample
  split
  · exact ⟨rfl, rfl, rfl, rfl, rfl⟩
  · split <;> exact ⟨rfl, rfl, rfl, rfl, rfl⟩

/-- An asynchronous sample is the first stop bit at its centre, or leaves the character alone (R152 to R154). -/
theorem rxAsyncSample_cases (v : Bit) (s : State) :
    (s.rx.state = .frame ∧ s.rx.wait ≤ 1 ∧ s.rx.bits.length = nbits s.mode + parityBits s.mode
        ∧ rxAsyncSample v s = rxAsyncComplete (s.rx.bits ++ [v]) s)
      ∨ (¬(s.rx.state = .frame ∧ s.rx.wait ≤ 1 ∧ s.rx.bits.length = nbits s.mode + parityBits s.mode)
        ∧ SameCharacter s (rxAsyncSample v s)) := by
  cases hstate : s.rx.state with
  | idle =>
    refine .inr ⟨by simp, ?_⟩
    simp only [rxAsyncSample, hstate]
    split
    · exact ⟨rfl, rfl, rfl, rfl, rfl⟩
    · split
      · exact rxStartCentre_sameCharacter v s
      · exact ⟨rfl, rfl, rfl, rfl, rfl⟩
  | start =>
    refine .inr ⟨by simp, ?_⟩
    simp only [rxAsyncSample, hstate]
    split
    · exact rxStartCentre_sameCharacter v s
    · exact ⟨rfl, rfl, rfl, rfl, rfl⟩
  | frame =>
    simp only [rxAsyncSample, hstate, true_and]
    split
    case isTrue hcentre =>
      by_cases hlen : s.rx.bits.length = nbits s.mode + parityBits s.mode
      · exact .inl ⟨by omega, hlen, rxFrameBit_of_stopBit hlen⟩
      · rw [rxFrameBit_of_partial hlen]
        exact .inr ⟨fun ⟨_, h⟩ => hlen h, rfl, rfl, rfl, rfl, rfl⟩
    case isFalse hwaiting =>
      exact .inr ⟨fun ⟨h, _⟩ => hwaiting (by omega), rfl, rfl, rfl, rfl, rfl⟩

/-- A sample delivers the collected bits as a character by R156, or leaves the character and the flags alone. -/
theorem rxSample_cases (v : Bit) (s : State) :
    (s.LastSample ∧ ∃ parOk fe rx,
        rxSample v s = { rxComplete (rxData s.mode (s.rx.bits ++ [v])) parOk fe s with rx := rx })
      ∨ (¬s.LastSample ∧ SameCharacter s (rxSample v s)) := by
  cases hmode : syncMode s.mode with
  | false =>
    rw [rxSample_of_async v hmode]
    rcases rxAsyncSample_cases v s with ⟨hstate, hwait, hlen, hdone⟩ | ⟨hno, hsame⟩
    · exact .inl ⟨⟨by simp [hmode], fun _ => ⟨hstate, hwait, hlen⟩⟩, _, _, _, hdone⟩
    · exact .inr ⟨fun ⟨_, h⟩ => hno (h hmode), hsame⟩
  | true =>
    rw [rxSample_of_sync v hmode]
    cases hhunt : s.hunt with
    | true =>
      rw [rxSyncSample_of_hunt hhunt]
      exact .inr ⟨fun ⟨h, _⟩ => Bool.false_ne_true ((h hmode).1.symm.trans hhunt), rxHuntSample_sameCharacter v s⟩
    | false =>
      by_cases hlen : s.rx.bits.length + 1 = nbits s.mode + parityBits s.mode
      · rw [rxSyncSample_of_lastBit hhunt hlen]
        exact .inl ⟨⟨fun _ => ⟨hhunt, hlen⟩, by simp [hmode]⟩, _, _, _, rfl⟩
      · rw [rxSyncSample_of_partial hhunt hlen]
        exact .inr ⟨fun ⟨h, _⟩ => hlen (h hmode).2, rfl, rfl, rfl, rfl, rfl⟩

/-! ### A stimulus -/

/-- The stimulus is a sample that completes a character. -/
abbrev CompletesCharacter (i : Instr) (s : State) : Prop := SampledBy i s ∧ s.LastSample

/-- The stimulus clears rx-ready: a clearing data read (R161) and the two resets (R231). -/
abbrev ClearsRxReady (i : Instr) (s : State) : Prop :=
  (i = .dataR ∧ s.params.rxrdyClearOnRead = true) ∨ (∃ b, i = .cmdIr b) ∨ i = .reset

theorem completesCharacter_of_completedBy {i : Instr} {s : State} (h : CompletedBy i s) : CompletesCharacter i s := by
  obtain ⟨hsampled, hsync, hasync⟩ := h
  exact ⟨hsampled, hsync, fun hmode => (hasync hmode).imp_right (And.imp_left Eq.le)⟩

/-- Where a character being collected has a sample to wait for, the last sample comes at a wait of exactly 1. -/
theorem completedBy_iff {i : Instr} {s : State} (hwaits : s.FrameWaits) : CompletedBy i s ↔ CompletesCharacter i s := by
  refine ⟨completesCharacter_of_completedBy, fun ⟨hsampled, hsync, hasync⟩ => ⟨hsampled, hsync, fun hmode => ?_⟩⟩
  obtain ⟨hstate, hwait, hlen⟩ := hasync hmode
  exact ⟨hstate, Nat.le_antisymm hwait (hwaits hmode hstate), hlen⟩

theorem sampledBy_pinRxc {v : Bit} {s : State} :
    SampledBy (.pinRxc v) s ↔ s.pins.rxc = false ∧ v = true ∧ cmdRxE s.cmd = true := by
  rw [SampledBy, Instr.pinRxc.injEq, cmdRxE, and_left_comm]

theorem not_clearsRxReady_of_sampledBy {i : Instr} {s : State} (h : SampledBy i s) : ¬ClearsRxReady i s := by
  simp [ClearsRxReady, h.1]

theorem pinWrite_sameCharacter {s latched after t : State} (h : pinWrite latched after = .next t)
    (hlatched : SameCharacter s latched) (hafter : SameCharacter s after) : SameCharacter s t := by
  rcases pinWrite_next.1 h with ⟨-, rfl⟩ | ⟨-, rfl⟩
  · exact hafter
  · exact hlatched

/-- PIN_RXC delivers a character by a sample that completes one, and by nothing else. -/
theorem exec_pinRxc_character {v : Bit} {s t : State} (h : exec (.pinRxc v) s = .next t) :
    (CompletesCharacter (.pinRxc v) s ∧ t.rxrdy = true
        ∧ t.rdr = if s.rxrdy then s.rdr else rxData s.mode (s.rx.bits ++ [s.pins.rxd]))
      ∨ (¬(s.wasReset = true ∧ CompletesCharacter (.pinRxc v) s) ∧ SameCharacter s t) := by
  rw [CompletesCharacter, sampledBy_pinRxc]
  rcases pinWrite_next.1 h with ⟨-, rfl⟩ | ⟨hunreset, rfl⟩
  · by_cases hsample : s.pins.rxc = false ∧ v = true ∧ cmdRxE s.cmd = true
    · rw [if_pos hsample]
      rcases rxSample_cases s.pins.rxd { s with pins := { s.pins with rxc := v } }
        with ⟨hlast, parOk, fe, rx, hdone⟩ | ⟨hno, hsame⟩
      · rw [hdone]
        exact .inl ⟨⟨hsample, hlast⟩, rfl, rfl⟩
      · exact .inr ⟨fun ⟨_, _, hlast⟩ => hno hlast, hsame⟩
    · rw [if_neg hsample]
      exact .inr ⟨fun ⟨_, hyes, _⟩ => hsample hyes, rfl, rfl, rfl, rfl, rfl⟩
  · exact .inr ⟨fun ⟨hreset, _⟩ => Bool.false_ne_true (hunreset.symm.trans hreset), rfl, rfl, rfl, rfl, rfl⟩

/-- What a stimulus can do to the receive data register: deliver a character; empty it, where only a reset changes the byte; or leave
the byte and rx-ready alone. -/
theorem exec_rxReady_cases {i : Instr} {s t : State} (h : exec i s = .next t) :
    (CompletesCharacter i s ∧ t.rxrdy = true
        ∧ t.rdr = if s.rxrdy then s.rdr else rxData s.mode (s.rx.bits ++ [s.pins.rxd]))
      ∨ (ClearsRxReady i s ∧ t.rxrdy = false ∧ (t.rdr = s.rdr ∨ (∃ b, i = .cmdIr b) ∨ i = .reset))
      ∨ (¬(s.wasReset = true ∧ CompletesCharacter i s) ∧ ¬ClearsRxReady i s ∧ t.rdr = s.rdr ∧ t.rxrdy = s.rxrdy) := by
  cases i with
  | cmdIr b =>
    obtain ⟨-, rfl⟩ := busAccess_next.1 h
    exact .inr (.inl ⟨.inr (.inl ⟨b, rfl⟩), rfl, .inr (.inl ⟨b, rfl⟩)⟩)
  | reset =>
    obtain rfl := Host.Outcome.next.inj h
    exact .inr (.inl ⟨.inr (.inr rfl), rfl, .inr (.inr rfl)⟩)
  | dataR =>
    obtain ⟨-, rfl⟩ := busAccess_next.1 h
    split
    case isTrue hclear => exact .inr (.inl ⟨.inl ⟨rfl, hclear⟩, rfl, .inl rfl⟩)
    case isFalse hkeep => exact .inr (.inr ⟨by simp [SampledBy], by simpa [ClearsRxReady] using hkeep, rfl, rfl⟩)
  | modeW | sync1W | sync2W | statusR | txrdyR =>
    obtain ⟨-, rfl⟩ := busAccess_next.1 h
    exact .inr (.inr ⟨by simp [SampledBy], by simp [ClearsRxReady], rfl, rfl⟩)
  | cmdW b =>
    obtain ⟨-, rfl⟩ := busAccess_next.1 h
    exact .inr (.inr ⟨by simp [SampledBy], by simp [ClearsRxReady], applyCommand_rdr b s, applyCommand_rxrdy b s⟩)
  | dataW =>
    obtain ⟨-, rfl⟩ := busAccess_next.1 h
    refine .inr (.inr ⟨by simp [SampledBy], by simp [ClearsRxReady], ?_⟩)
    split <;> exact ⟨rfl, rfl⟩
  | maskW | maskR =>
    obtain ⟨-, -, rfl⟩ := maskPort_next.1 h
    exact .inr (.inr ⟨by simp [SampledBy], by simp [ClearsRxReady], rfl, rfl⟩)
  | pinRxd | pinCts | pinDsr =>
    obtain ⟨hrdr, hrxrdy, -⟩ :=
      pinWrite_sameCharacter (s := s) h ⟨rfl, rfl, rfl, rfl, rfl⟩ ⟨rfl, rfl, rfl, rfl, rfl⟩
    exact .inr (.inr ⟨by simp [SampledBy], by simp [ClearsRxReady], hrdr, hrxrdy⟩)
  | pinTxc | pinSyn =>
    obtain ⟨hrdr, hrxrdy, -⟩ :=
      pinWrite_sameCharacter (s := s) h ⟨rfl, rfl, rfl, rfl, rfl⟩ (by split <;> simp [SameCharacter])
    exact .inr (.inr ⟨by simp [SampledBy], by simp [ClearsRxReady], hrdr, hrxrdy⟩)
  | pinRxc v =>
    exact (exec_pinRxc_character h).imp_right fun ⟨hno, hrdr, hrxrdy, _⟩ =>
      .inr ⟨hno, by simp [ClearsRxReady], hrdr, hrxrdy⟩

end Sys2Proof.Machine
end

section
/-! SUPPORT. What no stimulus but the mask port and RESET reads: the mask register and whether the machine has one (45_status_outputs
R200, 60_exceptions R216). -/

namespace Sys2Proof.Machine

/-- The same state with another answer to "is there a mask port" and another byte in the mask register. -/
def State.mapMaskPort (has : Bool → Bool) (mask : Byte → Byte) (s : State) : State :=
  { s with params := { s.params with hasMask := has s.params.hasMask }, mask := mask s.mask }

variable {has : Bool → Bool} {mask : Byte → Byte}

/-! ### The shared operations -/

theorem busAccess_mapMaskPort {s after after' : State} (h : after' = after.mapMaskPort has mask) :
    busAccess (s.mapMaskPort has mask) after' = mapAnswer (State.mapMaskPort has mask) (busAccess s after) := by
  subst h
  rw [busAccess, busAccess, apply_ite (mapAnswer (State.mapMaskPort has mask))]
  rfl

theorem pinWrite_mapMaskPort {latched latched' after after' : State} (hlatched : latched' = latched.mapMaskPort has mask)
    (hafter : after' = after.mapMaskPort has mask) :
    pinWrite latched' after' = mapAnswer (State.mapMaskPort has mask) (pinWrite latched after) := by
  subst hlatched hafter
  rw [pinWrite, pinWrite, apply_ite (mapAnswer (State.mapMaskPort has mask))]
  rfl

/-- The outputs are updated after a choice between two states; neither the choice nor the levels see the mask port. -/
theorem updateOutputs_ite_mapMaskPort {c : Prop} [Decidable c] {a b a' b' : State}
    (ha : a' = a.mapMaskPort has mask) (hb : b' = b.mapMaskPort has mask) :
    updateOutputs [] (if c then a' else b') = (updateOutputs [] (if c then a else b)).mapMaskPort has mask := by
  subst ha hb
  split <;> rfl

/-! ### The parts of a command, a bit tick and a receiver sample -/

theorem applyRxDisable_mapMaskPort (b : Byte) (s : State) :
    applyRxDisable b (s.mapMaskPort has mask) = (applyRxDisable b s).mapMaskPort has mask := by
  rw [applyRxDisable, applyRxDisable, apply_ite (State.mapMaskPort has mask)]
  rfl

theorem applyErrorReset_mapMaskPort (b : Byte) (s : State) :
    applyErrorReset b (s.mapMaskPort has mask) = (applyErrorReset b s).mapMaskPort has mask := by
  rw [applyErrorReset, applyErrorReset, apply_ite (State.mapMaskPort has mask)]
  rfl

theorem applyEnterHunt_mapMaskPort (b : Byte) (s : State) :
    applyEnterHunt b (s.mapMaskPort has mask) = (applyEnterHunt b s).mapMaskPort has mask := by
  rw [applyEnterHunt, applyEnterHunt, apply_ite (State.mapMaskPort has mask)]
  rfl

theorem applyCommand_mapMaskPort (b : Byte) (s : State) :
    applyCommand b (s.mapMaskPort has mask) = (applyCommand b s).mapMaskPort has mask := by
  rw [applyCommand, applyCommand, ← applyEnterHunt_mapMaskPort, ← applyErrorReset_mapMaskPort,
    ← applyRxDisable_mapMaskPort]
  rfl

theorem txBitTick_mapMaskPort (s : State) :
    txBitTick (s.mapMaskPort has mask) = (txBitTick s).mapMaskPort has mask := by
  rw [txBitTick, txBitTick, apply_ite (State.mapMaskPort has mask), apply_ite (State.mapMaskPort has mask)]
  rfl

theorem txcFalling_mapMaskPort (s : State) :
    txcFalling (s.mapMaskPort has mask) = (txcFalling s).mapMaskPort has mask := by
  rw [txcFalling, txcFalling, apply_ite (State.mapMaskPort has mask), ← txBitTick_mapMaskPort]
  rfl

theorem rxAsyncSample_mapMaskPort (v : Bit) (s : State) :
    rxAsyncSample v (s.mapMaskPort has mask) = (rxAsyncSample v s).mapMaskPort has mask := by
  have hstate : (s.mapMaskPort has mask).rx.state = s.rx.state := rfl
  cases h : s.rx.state
  all_goals
    simp only [rxAsyncSample, rxStartCentre, rxFrameBit, hstate, h, apply_ite (State.mapMaskPort has mask)]
    rfl

theorem rxSyncSample_mapMaskPort (v : Bit) (s : State) :
    rxSyncSample v (s.mapMaskPort has mask) = (rxSyncSample v s).mapMaskPort has mask := by
  simp only [rxSyncSample, rxHuntSample, apply_ite (State.mapMaskPort has mask)]
  rfl

theorem rxSample_mapMaskPort (v : Bit) (s : State) :
    rxSample v (s.mapMaskPort has mask) = (rxSample v s).mapMaskPort has mask := by
  rw [rxSample, rxSample, apply_ite (State.mapMaskPort has mask), ← rxSyncSample_mapMaskPort,
    ← rxAsyncSample_mapMaskPort]
  rfl

/-! ### The stimuli -/

/-- A stimulus other than the mask port's and RESET reads neither, and keeps both. -/
theorem exec_mapMaskPort {i : Instr} (hi : i.isMaskPort = false) (hreset : i ≠ .reset) (s : State) :
    exec i (s.mapMaskPort has mask) = mapAnswer (State.mapMaskPort has mask) (exec i s) := by
  cases i with
  | maskW | maskR => simp [Instr.isMaskPort] at hi
  | reset => exact absurd rfl hreset
  | modeW | sync1W | sync2W | cmdIr | statusR | txrdyR => exact busAccess_mapMaskPort rfl
  | dataW => exact busAccess_mapMaskPort (updateOutputs_ite_mapMaskPort rfl rfl)
  | dataR =>
    exact busAccess_mapMaskPort
      (congrArg (returning s.rdr) (updateOutputs_ite_mapMaskPort (a := { s with rxrdy := false }) (b := s) rfl rfl))
  | cmdW b =>
    exact busAccess_mapMaskPort (congrArg (updateOutputs [.dtr, .rts]) (applyCommand_mapMaskPort b s))
  | pinRxd | pinCts | pinDsr => exact pinWrite_mapMaskPort rfl rfl
  | pinTxc v =>
    exact pinWrite_mapMaskPort rfl
      (updateOutputs_ite_mapMaskPort (txcFalling_mapMaskPort { s with pins := { s.pins with txc := v } }) rfl)
  | pinRxc v =>
    exact pinWrite_mapMaskPort rfl
      (updateOutputs_ite_mapMaskPort (rxSample_mapMaskPort s.pins.rxd { s with pins := { s.pins with rxc := v } }) rfl)
  | pinSyn => exact pinWrite_mapMaskPort rfl (updateOutputs_ite_mapMaskPort rfl rfl)

end Sys2Proof.Machine
end

section
/-! PROOF. The status byte, the output pins and the mask register (45_status_outputs R190 to R200), and rx-ready (R193). -/

namespace Sys2Proof.Machine

/-! ### The output levels (R195) -/

theorem txdLevel_eq (s : State) : txdLevel s = (!s.cmd.getLsbD 3 && s.tx.line) := by
  rw [txdLevel, cmdSbrk]
  cases s.cmd.getLsbD 3 <;> rfl

theorem txrdyLevel_eq (s : State) : txrdyLevel s = (s.thre && s.cmd.getLsbD 0 && !s.pins.cts) :=
  (Bool.and_assoc _ _ _).symm

/-- Settles O55: each level is its own function, and the latches they read are not RXD's or DSR's. -/
theorem outputPinLevels : Obligations.OutputPinLevels := by
  intro s
  exact ⟨rfl, rfl, txdLevel_eq s, rfl, txrdyLevel_eq s, rfl, rfl, fun _ _ => rfl⟩

/-! ### The status byte (R190, R191) -/

/-- A flag at bit `k` of a byte is seen at that bit and at no other. -/
theorem getLsbD_flagAt (b : Bit) (k : Nat) {j : Nat} (hj : j < 8) : (flagAt b k).getLsbD j = (b && j == k) := by
  rw [flagAt, BitVec.getLsbD_shiftLeft, BitVec.getLsbD_setWidth, BitVec.getLsbD_ofBool, Bool.eq_iff_iff]
  simp only [Bool.and_eq_true, Bool.not_eq_true', decide_eq_true_eq, decide_eq_false_iff_not, beq_iff_eq]
  constructor
  · rintro ⟨⟨-, hle⟩, -, hzero, hb⟩
    exact ⟨hb, by omega⟩
  · rintro ⟨hb, rfl⟩
    exact ⟨by omega, by omega, by omega, hb⟩

/-- Each bit of the status byte is one flag. -/
theorem statusByte_getLsbD (s : State) {j : Nat} (hj : j < 8) :
    (statusByte s).getLsbD j =
      ([statusTxrdy s, s.rxrdy, txemptyLevel s, s.pe, s.oe, s.fe, statusSyndet s, !s.pins.dsr][j]?).getD false := by
  simp only [statusByte, BitVec.getLsbD_or, getLsbD_flagAt _ _ hj]
  interval_cases j <;> simp

/-- Settles O51: every bit is read by `statusByte_getLsbD`, and no flag reads what the read writes. -/
theorem statusRead : Obligations.StatusRead := by
  refine ⟨fun seq => decode_busReadWord seq 0b01#2, fun s => ⟨fun hunreset => busAccess_of_unreset hunreset _,
    fun hreset => ⟨_, _, busAccess_of_wasReset hreset _, rfl, ?bit0, ?_, ?_, ?_, ?_, ?_, ?_, ?_, rfl, rfl, ?again⟩⟩⟩
  case bit0 =>
    rw [statusByte_getLsbD s (by decide), ← txrdyLevel_eq]
    rfl
  case again => exact ⟨_, busAccess_of_wasReset hreset _, rfl⟩
  all_goals exact statusByte_getLsbD s (by decide)

/-! ### The loop of update_outputs (R196) -/

@[simp] theorem OutLevels.set_get_self (o : OutLevels) (p : OutPin) : o.set p (o.get p) = o := by
  cases p <;> rfl

theorem OutLevels.get_set (o : OutLevels) (p q : OutPin) (lv : Bit) :
    (o.set p lv).get q = if q = p then lv else o.get q := by
  cases p <;> cases q <;> rfl

/-- The pin is emitted: it is forced or off its level (R196). -/
def isEmitted (forced : List OutPin) (s : State) (p : OutPin) : Bool :=
  forced.contains p || (levels s).get p != s.out.get p

/-- The pin's level is emitted and stored. -/
def emitPin (s : State) (p : OutPin) : State :=
  { s with events := s.events ++ [(p, (levels s).get p)], out := s.out.set p ((levels s).get p) }

theorem emitLoop_cons (forced : List OutPin) (p : OutPin) (rest : List OutPin) (s : State) :
    emitLoop forced (p :: rest) s = emitLoop forced rest (if isEmitted forced s p then emitPin s p else s) := by
  rw [emitLoop, apply_ite (emitLoop forced rest)]
  rfl

/-- Storing one pin's level decides the emission of no other. -/
theorem isEmitted_emitPin_of_ne (forced : List OutPin) (s : State) {p q : OutPin} (h : q ≠ p) :
    isEmitted forced (emitPin s p) q = isEmitted forced s q :=
  congrArg (fun b => forced.contains q || (levels s).get q != b) ((s.out.get_set p q _).trans (if_neg h))

/-- What the loop does over pins of which none comes twice: it emits the forced and the changed ones, in order, and brings each to its
level. -/
theorem emitLoop_eq (forced : List OutPin) {ps : List OutPin} (hps : ps.Nodup) (s : State) :
    emitLoop forced ps s =
      { s with
        events := s.events ++ (ps.filter (isEmitted forced s)).map fun p => (p, (levels s).get p)
        out := ps.foldl (fun o p => o.set p ((levels s).get p)) s.out } := by
  induction ps generalizing s with
  | nil => simp [emitLoop]
  | cons p rest ih =>
    obtain ⟨hp, hrest⟩ := List.nodup_cons.1 hps
    rw [emitLoop_cons]
    cases hemit : isEmitted forced s p with
    | false =>
      have hlevel : (levels s).get p = s.out.get p := by simpa using (Bool.or_eq_false_iff.1 hemit).2
      rw [if_neg Bool.false_ne_true, ih hrest, List.filter_cons_of_neg (by simp [hemit]), List.foldl_cons, hlevel,
        OutLevels.set_get_self]
    | true =>
      have hothers : ∀ q ∈ rest, isEmitted forced (emitPin s p) q = isEmitted forced s q :=
        fun q hq => isEmitted_emitPin_of_ne forced s fun h => hp (h ▸ hq)
      rw [if_pos rfl, ih hrest, List.filter_congr hothers, List.filter_cons_of_pos hemit, List.map_cons,
        List.append_cons]
      rfl

/-- After a reset, and from settled outputs, every stimulus updates them with its own forced pins; of one that is silent this holds
because no pin is off its level. -/
theorem exec_emitted {i : Instr} {s t : State} (hreset : s.wasReset = true) (hs : s.Settled) (h : exec i s = .next t) :
    Emitted i.forced s t := by
  rcases exec_outputs h with hemitted | ⟨hforced, hevents, -, hlevels⟩
  · exact hemitted
  · have hsettled : State.Settled { t with out := s.out } := hs.trans (hlevels hreset).symm
    exact ⟨exec_settled hreset hs h, hevents.trans (hforced ▸ (emissions_settled hsettled).symm)⟩

/-- Settles O56: the seven pins are distinct, so the loop's emissions and stores are those of `update_outputs`. -/
theorem updateOutputsIsTheRuleLoop : Obligations.UpdateOutputsIsTheRuleLoop :=
  ⟨fun forced s => (emitLoop_eq forced (ps := OutPin.all) (by decide) { s with events := [], value := none }).symm,
    fun _ _ _ => exec_emitted⟩

/-- Settles O57: the emissions are those of an update, whose order and levels R197 gives. -/
theorem everyStimulusSettlesOutputs : Obligations.EveryStimulusSettlesOutputs := by
  intro i s t hreset hs h
  obtain ⟨hsettled, hevents⟩ := exec_emitted hreset hs h
  refine ⟨hsettled, ?order, ?levels, ?kept⟩
  case order =>
    rw [hevents]
    exact emissions_order _ _
  case levels =>
    intro e he
    rw [hevents] at he
    exact (mem_emissions.1 he).1
  case kept =>
    intro p hp
    by_contra hmoved
    have hout : s.out.get p = (levels s).get p := congrArg (OutLevels.get · p) hs
    refine hp ((levels t).get p) ?_
    rw [hevents]
    exact mem_emissions.2 ⟨rfl, .inr fun hsame => hmoved (hsame.trans hout)⟩

/-! ### The mask register (R198, R199, R200) -/

/-- The base chip refuses both words of the mask port, in any state. -/
theorem exec_maskPort_refused {i : Instr} {s : State} (hi : i.isMaskPort = true) (h : s.params.hasMask = false) :
    exec i s = .refused .reservedEncoding :=
  exec_refused.2 ⟨hi, h, rfl⟩

/-- Settles O52: the write stores its byte and no level reads the mask; the read returns it. -/
theorem maskRegister : Obligations.MaskRegister := by
  intro b s
  refine ⟨fun seq => ⟨decode_maskWord seq b, decode_busReadWord seq 0b10#2⟩,
    fun hbase => ⟨exec_maskPort_refused rfl hbase, exec_maskPort_refused rfl hbase⟩,
    fun hmask hunreset => ⟨exec_busAccess_of_unreset rfl (fun _ => hmask) hunreset,
      exec_busAccess_of_unreset rfl (fun _ => hmask) hunreset⟩,
    fun hmask hreset => ⟨_, maskPort_next.2 ⟨hmask, hreset, rfl⟩, ?write⟩,
    fun hmask hreset => ⟨_, maskPort_next.2 ⟨hmask, hreset, rfl⟩, rfl, rfl, rfl⟩⟩
  exact ⟨rfl, rfl, emitted_updateOutputs rfl, rfl, updateOutputs_of_levels_eq rfl rfl, rfl, rfl⟩

/-- Settles O53: the base chip refuses the mask port, RESET reads P_HAS_MASK for the mask register only, and nothing else reads it. -/
theorem variantIsSuperset : Obligations.VariantIsSuperset :=
  ⟨fun _ _ hbase => ⟨exec_maskPort_refused rfl hbase, exec_maskPort_refused rfl hbase⟩,
    fun _ h s hi hreset => exec_mapMaskPort (has := fun _ => h) (mask := id) hi hreset s,
    fun _ _ => ⟨_, _, rfl, rfl, rfl⟩⟩

/-! ### rx-ready (R193) -/

/-- Settles O43: the three things a stimulus can do to the receive data register, of which no two can be done at once. -/
theorem rxReadyLifecycle : Obligations.RxReadyLifecycle := by
  intro i s t h
  have hpin : s.wasReset = true → s.Settled → t.out.rxrdy = t.rxrdy :=
    fun hreset hs => congrArg OutLevels.rxrdy (exec_settled hreset hs h)
  rcases exec_rxReady_cases h with ⟨hdone, hready, hrdr⟩ | ⟨hclears, hempty, hrdr⟩ | ⟨hno, hkept, hrdr, hsame⟩
  case inl =>
    have hstored (hfree : s.rxrdy = false) : t.rdr = rxData s.mode (s.rx.bits ++ [s.pins.rxd]) := by
      rw [hrdr, hfree, if_neg Bool.false_ne_true]
    have hwasFree (hne : t.rdr ≠ s.rdr) : s.rxrdy = false :=
      Bool.eq_false_of_not_eq_true fun hfull => hne (hrdr.trans (if_pos hfull))
    exact ⟨fun _ _ => hdone.1, fun _ hwaits _ => iff_of_true hready ((completedBy_iff hwaits).2 hdone),
      fun _ hfree _ => (congrArg BitVec.toNat (hstored hfree)).trans (rxData_toNat _ _),
      fun _ => iff_of_false (by simp [hready]) (not_clearsRxReady_of_sampledBy hdone.1),
      fun hne => .inl ⟨hdone.1, hwasFree hne, hready⟩, hpin⟩
  case inr.inl =>
    have hno : ¬CompletedBy i s := fun hc => not_clearsRxReady_of_sampledBy hc.1 hclears
    exact ⟨fun _ hready => absurd hready (by simp [hempty]), fun _ _ _ => iff_of_false (by simp [hempty]) hno,
      fun _ _ hc => absurd hc hno, fun _ => iff_of_true hempty hclears, fun hne => .inr (hrdr.resolve_left hne), hpin⟩
  case inr.inr =>
    have hnone (hreset : s.wasReset = true) : ¬CompletedBy i s :=
      fun hc => hno ⟨hreset, completesCharacter_of_completedBy hc⟩
    exact ⟨fun hfree hready => absurd hready (by simp [hsame, hfree]),
      fun hreset _ hfree => iff_of_false (by simp [hsame, hfree]) (hnone hreset),
      fun hreset _ hc => absurd hc (hnone hreset), fun hfull => iff_of_false (by simp [hsame, hfull]) hkept,
      fun hne => absurd hrdr hne, hpin⟩

end Sys2Proof.Machine
end

section
/-! PROOF. The sticky error flags PE, OE and FE (60_exceptions R212, 10_state R33). -/

namespace Sys2Proof.Machine

/-- The stimulus clears the error flags: a command with ER (R112) and the two resets (R231). -/
abbrev ClearsErrors (i : Instr) : Prop :=
  (∃ b, i = .cmdW b ∧ b.getLsbD 4 = true) ∨ (∃ b, i = .cmdIr b) ∨ i = .reset

/-- Each error flag is the same. -/
abbrev SameErrors (s t : State) : Prop := t.pe = s.pe ∧ t.oe = s.oe ∧ t.fe = s.fe

/-- Each error flag that is set stays set. -/
abbrev ErrorsStay (s t : State) : Prop :=
  (s.pe = true → t.pe = true) ∧ (s.oe = true → t.oe = true) ∧ (s.fe = true → t.fe = true)

theorem SameErrors.stay {s t : State} : SameErrors s t → ErrorsStay s t
  | ⟨hpe, hoe, hfe⟩ => ⟨hpe.trans, hoe.trans, hfe.trans⟩

theorem SameCharacter.sameErrors {s t : State} : SameCharacter s t → SameErrors s t
  | ⟨_, _, herrors⟩ => herrors

theorem rxComplete_errorsStay (data : Byte) (parOk fe : Bool) (s : State) : ErrorsStay s (rxComplete data parOk fe s) :=
  ⟨Bool.or_inl, Bool.or_inl, Bool.or_inl⟩

/-- A sample only adds to the error flags (R156). -/
theorem rxSample_errorsStay (v : Bit) (s : State) : ErrorsStay s (rxSample v s) := by
  rcases rxSample_cases v s with ⟨-, parOk, fe, rx, hdone⟩ | ⟨-, hsame⟩
  · rw [hdone]
    exact rxComplete_errorsStay (rxData s.mode (s.rx.bits ++ [v])) parOk fe s
  · exact hsame.sameErrors.stay

theorem exec_pinRxc_errorsStay {v : Bit} {s t : State} (h : exec (.pinRxc v) s = .next t) : ErrorsStay s t := by
  rcases pinWrite_next.1 h with ⟨-, rfl⟩ | ⟨-, rfl⟩
  · split
    case isTrue => exact rxSample_errorsStay s.pins.rxd { s with pins := { s.pins with rxc := v } }
    case isFalse => exact ⟨id, id, id⟩
  · exact ⟨id, id, id⟩

theorem applyCommand_errorsClear {b : Byte} (h : cmdEr b = true) (s : State) :
    (applyCommand b s).pe = false ∧ (applyCommand b s).oe = false ∧ (applyCommand b s).fe = false := by
  simp [applyCommand_pe, applyCommand_oe, applyCommand_fe, h]

theorem applyCommand_sameErrors {b : Byte} (h : ¬cmdEr b = true) (s : State) : SameErrors s (applyCommand b s) := by
  simp [SameErrors, applyCommand_pe, applyCommand_oe, applyCommand_fe, h]

/-- What a stimulus can do to the error flags: clear all three; add to them by completing a character; or keep them. -/
theorem exec_errors_cases {i : Instr} {s t : State} (h : exec i s = .next t) :
    (ClearsErrors i ∧ t.pe = false ∧ t.oe = false ∧ t.fe = false)
      ∨ (¬ClearsErrors i ∧ CompletesCharacter i s ∧ ErrorsStay s t)
      ∨ (¬ClearsErrors i ∧ SameErrors s t) := by
  cases i with
  | cmdIr b =>
    obtain ⟨-, rfl⟩ := busAccess_next.1 h
    exact .inl ⟨.inr (.inl ⟨b, rfl⟩), rfl, rfl, rfl⟩
  | reset =>
    obtain rfl := Host.Outcome.next.inj h
    exact .inl ⟨.inr (.inr rfl), rfl, rfl, rfl⟩
  | cmdW b =>
    obtain ⟨-, rfl⟩ := busAccess_next.1 h
    by_cases hEr : cmdEr b = true
    · exact .inl ⟨.inl ⟨b, rfl, hEr⟩, applyCommand_errorsClear hEr s⟩
    · exact .inr (.inr ⟨by simpa [ClearsErrors, cmdEr] using hEr, applyCommand_sameErrors hEr s⟩)
  | modeW | sync1W | sync2W | statusR | txrdyR =>
    obtain ⟨-, rfl⟩ := busAccess_next.1 h
    exact .inr (.inr ⟨by simp [ClearsErrors], rfl, rfl, rfl⟩)
  | dataW | dataR =>
    obtain ⟨-, rfl⟩ := busAccess_next.1 h
    refine .inr (.inr ⟨by simp [ClearsErrors], ?_⟩)
    split <;> exact ⟨rfl, rfl, rfl⟩
  | maskW | maskR =>
    obtain ⟨-, -, rfl⟩ := maskPort_next.1 h
    exact .inr (.inr ⟨by simp [ClearsErrors], rfl, rfl, rfl⟩)
  | pinRxd | pinCts | pinDsr =>
    exact .inr (.inr ⟨by simp [ClearsErrors], SameCharacter.sameErrors
      (pinWrite_sameCharacter (s := s) h ⟨rfl, rfl, rfl, rfl, rfl⟩ ⟨rfl, rfl, rfl, rfl, rfl⟩)⟩)
  | pinTxc | pinSyn =>
    exact .inr (.inr ⟨by simp [ClearsErrors], SameCharacter.sameErrors
      (pinWrite_sameCharacter (s := s) h ⟨rfl, rfl, rfl, rfl, rfl⟩ (by split <;> simp [SameCharacter]))⟩)
  | pinRxc v =>
    rcases exec_pinRxc_character h with ⟨hdone, -⟩ | ⟨-, hsame⟩
    · exact .inr (.inl ⟨by simp [ClearsErrors], hdone, exec_pinRxc_errorsStay h⟩)
    · exact .inr (.inr ⟨by simp [ClearsErrors], hsame.sameErrors⟩)

/-- Settles O44: the three things a stimulus can do to the error flags; the status byte reads them by `statusByte_getLsbD`. -/
theorem errorFlagsAreSticky : Obligations.ErrorFlagsAreSticky := by
  intro i s t h
  have hstatus (hreset : s.wasReset = true) : ∃ u b, exec .statusR s = .next u ∧ u.value = some b
      ∧ b.getLsbD 3 = s.pe ∧ b.getLsbD 4 = s.oe ∧ b.getLsbD 5 = s.fe :=
    ⟨_, _, busAccess_of_wasReset hreset _, rfl, statusByte_getLsbD s (by decide), statusByte_getLsbD s (by decide),
      statusByte_getLsbD s (by decide)⟩
  rcases exec_errors_cases h with ⟨hclears, hclear⟩ | ⟨hkept, hdone, hstay⟩ | ⟨hkept, hsame⟩
  · exact ⟨fun _ => hclear, fun hno => absurd hclears hno, fun hset => by simp [hclear] at hset, hstatus⟩
  · exact ⟨fun hclears => absurd hclears hkept, fun _ => hstay,
      fun _ => ⟨hdone.1, fun hwaits => (completedBy_iff hwaits).2 hdone⟩, hstatus⟩
  · have ⟨hpe, hoe, hfe⟩ := hsame
    exact ⟨fun hclears => absurd hclears hkept, fun _ => hsame.stay, fun hset => by simp [hpe, hoe, hfe] at hset, hstatus⟩

end Sys2Proof.Machine
end

section
/-! PROOF. Device reset and the rule before it (70_reset_and_hazards R230, R232). -/

namespace Sys2Proof.Machine

/-! ### Before the first reset (R232) -/

/-- Before the first reset a pin write updates its latch and nothing else. -/
theorem exec_pinWrite_of_unreset {i : Instr} {s : State} (hpin : i.isPinWrite = true) (h : s.wasReset = false) :
    exec i s = .next (s.latchedOnly (i.latch s.pins)) := by
  cases i with
  | pinRxd | pinCts | pinDsr | pinTxc | pinRxc | pinSyn => exact pinWrite_of_unreset h _
  | dataW | modeW | sync1W | sync2W | cmdW | cmdIr | maskW | dataR | statusR | maskR | txrdyR | reset =>
    simp [Instr.isPinWrite] at hpin

/-- Settles O10: a stimulus is a bus access, a pin write or RESET, and RESET does not read `S.was_reset`. -/
theorem beforeFirstReset : Obligations.BeforeFirstReset := by
  intro i s hunreset
  refine ⟨fun hbus hmask => exec_busAccess_of_unreset hbus hmask hunreset,
    fun hpin => exec_pinWrite_of_unreset hpin hunreset, ?reset⟩
  case reset =>
    rintro rfl
    exact ⟨_, rfl⟩

/-! ### RESET (R230) -/

/-- Settles O11: RESET is a core reset that also writes the mask and `S.was_reset`, which no output level reads. -/
theorem deviceReset : Obligations.DeviceReset := by
  refine ⟨fun _ => rfl, fun s => ⟨_, rfl, ?_⟩⟩
  exact ⟨coreReset_atResetValues s, rfl, rfl, rfl, rfl, rfl, levels_coreReset s, emissions_coreReset s, rfl⟩

end Sys2Proof.Machine
end

section
/-! PROOF. The decoder against the encoder and against the rows of opcode_table.json (30_encoding R70 to R75). -/

namespace Sys2Proof

/-! ### Decoding an encoded stimulus -/

/-- The control port's word decodes to the stimulus that its sequencer state selects. -/
theorem decode_controlPort (seq : Seq) (b : Byte) :
    decode seq (busWriteWord 0b01#2 b) = some (decodeControl seq b) := by
  simp [decode_busWriteWord]

/-- Settles O3: the sequencer state that admits a control-port stimulus, and bit 6 of a command, select it again. -/
theorem decodeOfEncode : Obligations.DecodeOfEncode := by
  intro seq i hwf hadmitted
  cases i with
  | dataW b => exact decode_busWriteWord seq 0b00#2 b
  | maskW b => exact decode_busWriteWord seq 0b10#2 b
  | modeW b | sync1W b | sync2W b =>
    obtain rfl := eq_of_beq hadmitted
    exact decode_controlPort _ b
  | cmdW b =>
    obtain rfl := eq_of_beq hadmitted
    exact (decode_controlPort _ b).trans
      (congrArg some (decodeControl_expectCommand_cmdW ((Bool.not_eq_true' _).mp hwf)))
  | cmdIr b =>
    obtain rfl := eq_of_beq hadmitted
    exact (decode_controlPort _ b).trans (congrArg some (decodeControl_expectCommand_cmdIr hwf))
  | dataR => exact decode_busReadWord seq 0b00#2
  | statusR => exact decode_busReadWord seq 0b01#2
  | maskR => exact decode_busReadWord seq 0b10#2
  | txrdyR => exact decode_busReadWord seq 0b11#2
  | pinRxd v => exact decode_pinWord seq 0b000#3 v
  | pinCts v => exact decode_pinWord seq 0b001#3 v
  | pinDsr v => exact decode_pinWord seq 0b010#3 v
  | pinTxc v => exact decode_pinWord seq 0b011#3 v
  | pinRxc v => exact decode_pinWord seq 0b100#3 v
  | pinSyn v => exact decode_pinWord seq 0b101#3 v
  | reset => rfl

/-! ### Encoding a decoded word -/

/-- A word that decodes has the zero fields of its class, so it is a word of the encoder (R71 to R73). -/
theorem word_of_decode_some {seq : Seq} {w : Word} {i : Instr} (h : decode seq w = some i) :
    (∃ p b, w = busWriteWord p b) ∨ (∃ p, w = busReadWord p) ∨ (∃ p v, w = pinWord p v) ∨ w = 0xC000#16 := by
  rcases bitVec2_cases (wordClass w) with hc | hc | hc | hc
  · by_cases hz : wordZero w = 0#4
    · have hw := word_eq_busFields w
      rw [hc, hz] at hw
      exact .inl ⟨_, _, hw.symm⟩
    · simp [decode, hc, decodeBusWrite, hz] at h
  · by_cases hz : wordZero w = 0#4 ∧ wordData w = 0#8
    · have hw := word_eq_busFields w
      rw [hc, hz.1, hz.2] at hw
      exact .inr (.inl ⟨_, hw.symm⟩)
    · simp [decode, hc, decodeBusRead, not_and_or.1 hz] at h
  · by_cases hz : wordPinZero w = 0#10
    · have hw := word_eq_pinFields w
      rw [hc, hz] at hw
      exact .inr (.inr (.inl ⟨_, _, hw.symm⟩))
    · simp [decode, hc, decodePinWrite, hz] at h
  · by_cases hz : wordResetZero w = 0#14
    · have hw := word_eq_resetFields w
      rw [hc, hz] at hw
      exact .inr (.inr (.inr hw.symm))
    · simp [decode, hc, hz] at h

/-- The stimulus is well formed, the sequencer state admits it, and `w` is its word. -/
abbrev SpelledBy (seq : Seq) (w : Word) (i : Instr) : Prop :=
  encode i = w ∧ i.wf = true ∧ i.admittedIn seq = true

theorem decodeControl_spelledBy (seq : Seq) (b : Byte) :
    SpelledBy seq (busWriteWord 0b01#2 b) (decodeControl seq b) := by
  cases seq with
  | expectMode | expectSync1 | expectSync2 => exact ⟨rfl, rfl, rfl⟩
  | expectCommand =>
    cases hir : b.getLsbD 6 with
    | false =>
      rw [decodeControl_expectCommand_cmdW hir]
      exact ⟨rfl, congrArg (!·) hir, rfl⟩
    | true =>
      rw [decodeControl_expectCommand_cmdIr hir]
      exact ⟨rfl, hir, rfl⟩

/-- Settles O4: on each kind of word the decoder reads the operand, and the encoder puts it back. -/
theorem encodeOfDecode : Obligations.EncodeOfDecode := by
  intro seq w i h
  rcases word_of_decode_some h with ⟨p, b, rfl⟩ | ⟨p, rfl⟩ | ⟨p, v, rfl⟩ | rfl
  · rw [decode_busWriteWord] at h
    rcases bitVec2_cases p with rfl | rfl | rfl | rfl
    · obtain rfl := Option.some.inj h
      exact ⟨rfl, rfl, rfl⟩
    · obtain rfl := Option.some.inj h
      exact decodeControl_spelledBy seq b
    · obtain rfl := Option.some.inj h
      exact ⟨rfl, rfl, rfl⟩
    · cases h
  · rw [decode_busReadWord] at h
    rcases bitVec2_cases p with rfl | rfl | rfl | rfl
    all_goals
      obtain rfl := Option.some.inj h
      exact ⟨rfl, rfl, rfl⟩
  · rw [decode_pinWord] at h
    rcases bitVec3_cases p with rfl | rfl | rfl | rfl | rfl | rfl | rfl | rfl
    case inr.inr.inr.inr.inr.inr.inl | inr.inr.inr.inr.inr.inr.inr => cases h
    all_goals
      obtain rfl := Option.some.inj h
      exact ⟨rfl, rfl, rfl⟩
  · obtain rfl := Option.some.inj h
    exact ⟨rfl, rfl, rfl⟩

/-! ### The rows of opcode_table.json -/

/-- The word of a well-formed stimulus matches its row. -/
theorem encode_matches_row {i : Instr} (hwf : i.wf = true) : encode i &&& rowMask i = rowMatch i := by
  have hrow : Laws.TableRow.Statement i := by
    cases i with
    | dataW b => exact Laws.TableRow.dataW b
    | modeW b => exact Laws.TableRow.modeW b
    | sync1W b => exact Laws.TableRow.sync1W b
    | sync2W b => exact Laws.TableRow.sync2W b
    | cmdW b => exact Laws.TableRow.cmdW b
    | cmdIr b => exact Laws.TableRow.cmdIr b
    | maskW b => exact Laws.TableRow.maskW b
    | dataR => exact Laws.TableRow.dataR
    | statusR => exact Laws.TableRow.statusR
    | maskR => exact Laws.TableRow.maskR
    | txrdyR => exact Laws.TableRow.txrdyR
    | pinRxd v => exact Laws.TableRow.pinRxd v
    | pinCts v => exact Laws.TableRow.pinCts v
    | pinDsr v => exact Laws.TableRow.pinDsr v
    | pinTxc v => exact Laws.TableRow.pinTxc v
    | pinRxc v => exact Laws.TableRow.pinRxc v
    | pinSyn v => exact Laws.TableRow.pinSyn v
    | reset => exact Laws.TableRow.reset
  exact (hrow hwf).1

/-- When a row fixes the high field to `x`, a word of the row is `x` before a free low field. -/
theorem eq_append_of_masked {m n : Nat} {w : BitVec (m + n)} {x : BitVec m}
    (h : w &&& (BitVec.allOnes m ++ 0#n) = x ++ 0#n) : w = x ++ w.extractLsb' 0 n := by
  apply BitVec.eq_of_getLsbD_eq
  intro k hk
  have hbit := congrArg (BitVec.getLsbD · k) h
  simp only [BitVec.getLsbD_and, BitVec.getLsbD_append, BitVec.getLsbD_allOnes, BitVec.getLsbD_zero] at hbit
  rw [BitVec.getLsbD_append, BitVec.getLsbD_extractLsb']
  by_cases hlow : k < n
  · simp [hlow]
  · have hhigh : k - n < m := by omega
    simpa [hlow, hhigh] using hbit

theorem eq_busWriteWord_of_masked {w : Word} (p : BitVec 2) (h : w &&& 0xFF00#16 = busWriteWord p 0#8) :
    w = busWriteWord p (wordData w) :=
  eq_append_of_masked (m := 8) (n := 8) h

theorem eq_pinWord_of_masked {w : Word} (p : BitVec 3) (h : w &&& 0xFFFE#16 = pinWord p false) :
    w = pinWord p (wordLevel w) := by
  have hw : w = (0b10#2 ++ p ++ 0#10) ++ w.extractLsb' 0 1 := eq_append_of_masked (m := 15) (n := 1) h
  have hlevel : w.extractLsb' 0 1 = BitVec.ofBool (wordLevel w) := by
    apply BitVec.eq_of_getLsbD_eq
    intro k hk
    obtain rfl : k = 0 := by omega
    simp [wordLevel]
  exact hw.trans (congrArg (0b10#2 ++ p ++ 0#10 ++ ·) hlevel)

theorem eq_of_masked_allOnes {w x : Word} (h : w &&& 0xFFFF#16 = x) : w = x :=
  (BitVec.and_allOnes (x := w)).symm.trans h

/-- The command rows fix bit 6 beside the fields of a control word. -/
theorem eq_controlWord_of_command_masked {w x : Word} (h : w &&& 0xFF40#16 = x)
    (hx : x &&& 0xFF00#16 = busWriteWord 0b01#2 0#8) : w = busWriteWord 0b01#2 (wordData w) := by
  refine eq_busWriteWord_of_masked _ ?_
  rw [← hx, ← h, BitVec.and_assoc]
  rfl

/-- A word that matches a row decodes, whatever the sequencer state. -/
theorem decode_isSome_of_matches_row (seq : Seq) {w : Word} {i : Instr} (h : w &&& rowMask i = rowMatch i) :
    (decode seq w).isSome = true := by
  cases i with
  | dataW b => rw [eq_busWriteWord_of_masked 0b00#2 h, decode_busWriteWord]; rfl
  | maskW b => rw [eq_busWriteWord_of_masked 0b10#2 h, decode_busWriteWord]; rfl
  | modeW b | sync1W b | sync2W b => rw [eq_busWriteWord_of_masked 0b01#2 h, decode_busWriteWord]; rfl
  | cmdW b => rw [eq_controlWord_of_command_masked (x := 0x1000#16) h (by decide), decode_busWriteWord]; rfl
  | cmdIr b => rw [eq_controlWord_of_command_masked (x := 0x1040#16) h (by decide), decode_busWriteWord]; rfl
  | dataR => rw [eq_of_masked_allOnes h]; rfl
  | statusR => rw [eq_of_masked_allOnes h]; rfl
  | maskR => rw [eq_of_masked_allOnes h]; rfl
  | txrdyR => rw [eq_of_masked_allOnes h]; rfl
  | reset => rw [eq_of_masked_allOnes h]; rfl
  | pinRxd v => rw [eq_pinWord_of_masked 0b000#3 h, decode_pinWord]; rfl
  | pinCts v => rw [eq_pinWord_of_masked 0b001#3 h, decode_pinWord]; rfl
  | pinDsr v => rw [eq_pinWord_of_masked 0b010#3 h, decode_pinWord]; rfl
  | pinTxc v => rw [eq_pinWord_of_masked 0b011#3 h, decode_pinWord]; rfl
  | pinRxc v => rw [eq_pinWord_of_masked 0b100#3 h, decode_pinWord]; rfl
  | pinSyn v => rw [eq_pinWord_of_masked 0b101#3 h, decode_pinWord]; rfl

/-- Settles O5: what is decoded is the row's own word, and a word of any row decodes. -/
theorem decodeMatchesTableRows : Obligations.DecodeMatchesTableRows := by
  intro seq w
  have hmatch (i : Instr) (h : decode seq w = some i) : w &&& rowMask i = rowMatch i := by
    obtain ⟨hword, hwf, -⟩ := encodeOfDecode seq w i h
    exact hword ▸ encode_matches_row hwf
  refine ⟨hmatch, fun hnone i _ hrow => ?_, fun hrows => ?_⟩
  · simpa [hnone] using decode_isSome_of_matches_row seq hrow
  · refine Option.eq_none_iff_forall_ne_some.2 fun i h => ?_
    exact hrows i (encodeOfDecode seq w i h).2.2 (hmatch i h)

/-- Settles O1: each word is evaluated. -/
theorem specWordsDecode : Obligations.SpecWordsDecode := by
  unfold Obligations.SpecWordsDecode
  decide

end Sys2Proof
end

section
/-! SUPPORT. What every stimulus does before the outputs are updated, and what that leaves in the fields that configure the machine:
the sequencer, the mode and the command byte, the parameters, the words to come and `S.was_reset`. -/

namespace Sys2Proof.Machine

/-- The state that a stimulus hands to `update_outputs` after the first reset, as its rule gives it. -/
def effect : Instr → State → State
  | .dataW b, s => if s.thre then { s with thr := b, thre := false } else s
  | .modeW b, s =>
    { s with
      mode := b, txDiv := 0, tx := .idle, rx := .idle, huntHist := [], syndet := false, hunt := syncMode b
      seq := if syncMode b then .expectSync1 else .expectCommand }
  | .sync1W b, s => { s with sync1 := b, seq := if nsync s.mode = 2 then .expectSync2 else .expectCommand }
  | .sync2W b, s => { s with sync2 := b, seq := .expectCommand }
  | .cmdW b, s => applyCommand b s
  | .cmdIr _, s => coreReset s
  | .maskW b, s => { s with mask := b }
  | .dataR, s => if s.params.rxrdyClearOnRead then { s with rxrdy := false } else s
  | .statusR, s | .maskR, s | .txrdyR, s => s
  | .pinRxd v, s => { s with pins := { s.pins with rxd := v } }
  | .pinCts v, s => { s with pins := { s.pins with cts := v } }
  | .pinDsr v, s => { s with pins := { s.pins with dsr := v } }
  | .pinTxc v, s =>
    if s.pins.txc = true ∧ v = false then txcFalling { s with pins := { s.pins with txc := v } }
    else { s with pins := { s.pins with txc := v } }
  | .pinRxc v, s =>
    if s.pins.rxc = false ∧ v = true ∧ cmdRxE s.cmd = true then
      rxSample s.pins.rxd { s with pins := { s.pins with rxc := v } }
    else { s with pins := { s.pins with rxc := v } }
  | .pinSyn v, s =>
    if s.pins.syn = false ∧ v = true ∧ esd s.mode = true ∧ s.hunt = true ∧ cmdRxE s.cmd = true then
      declareSync { s with pins := { s.pins with syn := v } }
    else { s with pins := { s.pins with syn := v } }
  | .reset, s =>
    { coreReset s with mask := if s.params.hasMask then s.params.maskReset else s.mask, wasReset := true }

/-- What a stimulus can answer with a next state: its effect, but for the output side; or, before the first reset, a latch alone. -/
theorem exec_cases {i : Instr} {s t : State} (h : exec i s = .next t) :
    ((s.wasReset = true ∨ i = .reset) ∧ t.withOutputsOf (effect i s) = effect i s)
      ∨ (s.wasReset = false ∧ i.isPinWrite = true ∧ t = s.latchedOnly (i.latch s.pins)) := by
  cases i with
  | dataW | modeW | sync1W | sync2W | cmdW | cmdIr | dataR | statusR | txrdyR =>
    obtain ⟨hreset, rfl⟩ := busAccess_next.1 h
    exact .inl ⟨.inl hreset, rfl⟩
  | maskW | maskR =>
    obtain ⟨-, hreset, rfl⟩ := maskPort_next.1 h
    exact .inl ⟨.inl hreset, rfl⟩
  | pinRxd | pinCts | pinDsr | pinTxc | pinRxc | pinSyn =>
    rcases pinWrite_next.1 h with ⟨hreset, rfl⟩ | ⟨hunreset, rfl⟩
    · exact .inl ⟨.inl hreset, rfl⟩
    · exact .inr ⟨hunreset, rfl, rfl⟩
  | reset =>
    obtain rfl := Host.Outcome.next.inj h
    exact .inl ⟨.inr rfl, rfl⟩

/-- After the first reset a stimulus has its effect. -/
theorem exec_effect {i : Instr} {s t : State} (hreset : s.wasReset = true) (h : exec i s = .next t) :
    t.withOutputsOf (effect i s) = effect i s := by
  rcases exec_cases h with ⟨-, heffect⟩ | ⟨hunreset, -⟩
  · exact heffect
  · exact absurd (hunreset.symm.trans hreset) Bool.false_ne_true

/-! ### The fields that configure the machine -/

/-- `S.mode` after a stimulus that found it at `m` (40_sequencer R101, 70_reset_and_hazards R231). -/
def modeAfter : Instr → Byte → Byte
  | .modeW b, _ => b
  | .cmdIr _, _ | .reset, _ => 0x00#8
  | .dataW _, m | .sync1W _, m | .sync2W _, m | .cmdW _, m | .maskW _, m | .dataR, m | .statusR, m | .maskR, m
  | .txrdyR, m | .pinRxd _, m | .pinCts _, m | .pinDsr _, m | .pinTxc _, m | .pinRxc _, m | .pinSyn _, m => m

/-- `S.seq` after a stimulus that found it at `q`, with the mode byte at `m` (40_sequencer R101 to R103, R111, R231). -/
def seqAfterInstr : Instr → Seq → Byte → Seq
  | .modeW b, _, _ => if syncMode b then .expectSync1 else .expectCommand
  | .sync1W _, _, m => if nsync m = 2 then .expectSync2 else .expectCommand
  | .sync2W _, _, _ => .expectCommand
  | .cmdIr _, _, _ | .reset, _, _ => .expectMode
  | .dataW _, q, _ | .cmdW _, q, _ | .maskW _, q, _ | .dataR, q, _ | .statusR, q, _ | .maskR, q, _ | .txrdyR, q, _
  | .pinRxd _, q, _ | .pinCts _, q, _ | .pinDsr _, q, _ | .pinTxc _, q, _ | .pinRxc _, q, _ | .pinSyn _, q, _ => q

/-- What a stimulus does to the fields that configure the machine. -/
theorem effect_configuration (i : Instr) (s : State) :
    (effect i s).seq = seqAfterInstr i s.seq s.mode ∧ (effect i s).mode = modeAfter i s.mode
      ∧ (effect i s).cmd = commandAfter i s.cmd ∧ (effect i s).params = s.params
      ∧ (effect i s).pending = s.pending ∧ (s.wasReset = true → (effect i s).wasReset = true) := by
  cases i with
  | modeW | sync1W | sync2W | cmdIr | maskW | statusR | maskR | txrdyR => exact ⟨rfl, rfl, rfl, rfl, rfl, id⟩
  | pinRxd | pinCts | pinDsr => exact ⟨rfl, rfl, rfl, rfl, rfl, id⟩
  | reset => exact ⟨rfl, rfl, rfl, rfl, rfl, fun _ => rfl⟩
  | cmdW b => simp [effect, seqAfterInstr, modeAfter, commandAfter]
  | dataW | dataR | pinSyn =>
    rw [effect]
    split <;> exact ⟨rfl, rfl, rfl, rfl, rfl, id⟩
  | pinTxc | pinRxc =>
    rw [effect]
    split <;> simp [seqAfterInstr, modeAfter, commandAfter]

@[simp] theorem effect_seq (i : Instr) (s : State) : (effect i s).seq = seqAfterInstr i s.seq s.mode := by
  obtain ⟨hseq, -⟩ := effect_configuration i s
  exact hseq
@[simp] theorem effect_mode (i : Instr) (s : State) : (effect i s).mode = modeAfter i s.mode := by
  obtain ⟨-, hmode, -⟩ := effect_configuration i s
  exact hmode
@[simp] theorem effect_cmd (i : Instr) (s : State) : (effect i s).cmd = commandAfter i s.cmd := by
  obtain ⟨-, -, hcmd, -⟩ := effect_configuration i s
  exact hcmd
@[simp] theorem effect_params (i : Instr) (s : State) : (effect i s).params = s.params := by
  obtain ⟨-, -, -, hparams, -⟩ := effect_configuration i s
  exact hparams
@[simp] theorem effect_pending (i : Instr) (s : State) : (effect i s).pending = s.pending := by
  obtain ⟨-, -, -, -, hpending, -⟩ := effect_configuration i s
  exact hpending
theorem effect_wasReset (i : Instr) {s : State} (h : s.wasReset = true) : (effect i s).wasReset = true := by
  obtain ⟨-, -, -, -, -, hreset⟩ := effect_configuration i s
  exact hreset h

theorem seqAfterInstr_of_pinWrite {i : Instr} (h : i.isPinWrite = true) (q : Seq) (m : Byte) :
    seqAfterInstr i q m = q := by
  cases i with
  | pinRxd | pinCts | pinDsr | pinTxc | pinRxc | pinSyn => rfl
  | dataW | modeW | sync1W | sync2W | cmdW | cmdIr | maskW | dataR | statusR | maskR | txrdyR | reset =>
    simp [Instr.isPinWrite] at h

theorem exec_seq {i : Instr} {s t : State} (h : exec i s = .next t) : t.seq = seqAfterInstr i s.seq s.mode := by
  rcases exec_cases h with ⟨-, heffect⟩ | ⟨-, hpin, rfl⟩
  · exact (congrArg State.seq heffect).trans (effect_seq i s)
  · exact (seqAfterInstr_of_pinWrite hpin _ _).symm

/-- No stimulus writes a parameter or the words to come. -/
theorem exec_params_pending {i : Instr} {s t : State} (h : exec i s = .next t) :
    t.params = s.params ∧ t.pending = s.pending := by
  rcases exec_cases h with ⟨-, heffect⟩ | ⟨-, -, rfl⟩
  · exact ⟨(congrArg State.params heffect).trans (effect_params i s),
      (congrArg State.pending heffect).trans (effect_pending i s)⟩
  · exact ⟨rfl, rfl⟩

end Sys2Proof.Machine
end

section
/-! PROOF. The step, which takes one word and runs it, the completion of every stimulus after a reset, and the sequencer over a step
and over the safe reset sequence. -/

namespace Sys2Proof.Machine

/-! ### The step -/

/-- Settles O7: a word that decodes is run on the rest, and an empty queue is an idle step. -/
theorem stepRunsTheDecodedStimulus : Obligations.StepRunsTheDecodedStimulus :=
  ⟨fun _ _ _ _ hp hd => step_of_decode_some hp hd, fun s hp => by simp [step, fetch, hp, quiet]⟩

/-- Settles O8: the step takes the word off, and the stimulus keeps the rest and the parameters. -/
theorem stepTakesOneStimulus : Obligations.StepTakesOneStimulus := by
  intro s t h
  rcases step_next h with ⟨hp, rfl⟩ | ⟨w, rest, i, hp, -, hexec⟩
  · exact ⟨rfl, by simp [hp]⟩
  · obtain ⟨hparams, hpending⟩ := exec_params_pending hexec
    exact ⟨hparams, by simp [hpending, hp]⟩

/-- Settles O9: after a reset no bus access faults, and the variant has its mask port. -/
theorem everyAdmittedStimulusCompletes : Obligations.EveryAdmittedStimulusCompletes := by
  intro i s hreset hmask
  cases i with
  | dataW | modeW | sync1W | sync2W | cmdW | cmdIr | dataR | statusR | txrdyR =>
    exact ⟨_, busAccess_of_wasReset hreset _⟩
  | maskW | maskR => exact ⟨_, maskPort_next.2 ⟨hmask rfl, hreset, rfl⟩⟩
  | pinRxd | pinCts | pinDsr | pinTxc | pinRxc | pinSyn => exact ⟨_, pinWrite_of_wasReset hreset _⟩
  | reset => exact ⟨_, rfl⟩

/-! ### The sequencer over a step (40_sequencer, the transition table) -/

/-- The class, port and zero fields of a bus write are the high byte of its word. -/
theorem busWriteWord_high (p : BitVec 2) (b : Byte) :
    (busWriteWord p b).extractLsb' 8 8 = 0b00#2 ++ p ++ 0#4 :=
  BitVec.extractLsb'_append_eq_left

theorem busWriteWord_ne_resetWord (p : BitVec 2) (b : Byte) : busWriteWord p b ≠ 0xC000#16 := by
  intro h
  have hclass : wordClass (busWriteWord p b) = wordClass 0xC000#16 := congrArg wordClass h
  rw [busWriteWord, (busFields_append _ _ _ _).1] at hclass
  exact absurd hclass (by decide)

/-- A bus write of a port other than 01 leaves the sequencer alone. -/
theorem seqAfter_busWriteWord_of_ne {p : BitVec 2} (hp : 0b00#2 ++ p ++ 0#4 ≠ 0x10#8) (q : Seq) (m b : Byte) :
    seqAfter q m (busWriteWord p b) = q := by
  unfold seqAfter
  rw [if_neg (busWriteWord_ne_resetWord p b), busWriteWord_high, if_neg hp]

/-- A control-port write moves the sequencer as the stimulus it selects does. -/
theorem seqAfter_controlWord (q : Seq) (m b : Byte) :
    seqAfter q m (busWriteWord 0b01#2 b) = seqAfterInstr (decodeControl q b) q m := by
  obtain ⟨-, -, -, hdata⟩ := busFields_append 0b00#2 0b01#2 0#4 b
  rw [← busWriteWord] at hdata
  unfold seqAfter
  rw [if_neg (busWriteWord_ne_resetWord _ b), busWriteWord_high, if_pos (show 0b00#2 ++ 0b01#2 ++ 0#4 = 0x10#8 from rfl),
    hdata]
  cases q with
  | expectMode | expectSync1 | expectSync2 => rfl
  | expectCommand =>
    rw [decodeControl]
    cases b.getLsbD 6 <;> rfl

/-- The transition table of the words is that of the stimuli they spell. -/
theorem seqAfter_of_decode {q : Seq} {w : Word} {i : Instr} (h : decode q w = some i) (m : Byte) :
    seqAfter q m w = seqAfterInstr i q m := by
  obtain ⟨rfl, -, -⟩ := encodeOfDecode q w i h
  cases i with
  | dataW b | maskW b => exact seqAfter_busWriteWord_of_ne (by decide) q m b
  | modeW b | sync1W b | sync2W b | cmdW b | cmdIr b =>
    have hi := Option.some.inj ((decode_controlPort q b).symm.trans h)
    exact (seqAfter_controlWord q m b).trans (congrArg (seqAfterInstr · q m) hi)
  | dataR | statusR | maskR | txrdyR | reset => rfl
  | pinRxd v | pinCts v | pinDsr v | pinTxc v | pinRxc v | pinSyn v => cases v <;> rfl

/-- Settles O17: the step runs the stimulus that the word spells, which moves the sequencer as the table says of the word. -/
theorem sequencerTransitions : Obligations.SequencerTransitions := by
  intro s t w rest hp h
  rcases step_next h with ⟨hnone, -⟩ | ⟨w', rest', i, hp', hd, hexec⟩
  · simp [hnone] at hp
  · obtain ⟨rfl, rfl⟩ := List.cons.inj (hp.symm.trans hp')
    exact (exec_seq hexec).trans (seqAfter_of_decode hd s.mode).symm

/-! ### The safe reset sequence (70_reset_and_hazards section 2) -/

/-- After a reset a control-port write completes, and moves the configuration as the stimulus it selects does. -/
theorem step_controlWord_completes {s : State} {b : Byte} {rest : List Word} (hreset : s.wasReset = true)
    (hp : s.pending = controlWord b :: rest) :
    ∃ t, step s = .next t ∧ t.wasReset = true ∧ t.pending = rest
      ∧ t.seq = seqAfterInstr (decodeControl s.seq b) s.seq s.mode
      ∧ t.mode = modeAfter (decodeControl s.seq b) s.mode ∧ t.cmd = commandAfter (decodeControl s.seq b) s.cmd := by
  obtain ⟨t, hexec⟩ := everyAdmittedStimulusCompletes (decodeControl s.seq b) { s with pending := rest } hreset
    (by simp [decodeControl_isMaskPort])
  have heffect := exec_effect (s := { s with pending := rest }) hreset hexec
  have hseq := exec_seq hexec
  have hcmd := exec_cmd hexec
  exact ⟨t, (step_controlWord hp).trans hexec, (congrArg State.wasReset heffect).trans (effect_wasReset _ hreset),
    (congrArg State.pending heffect).trans (effect_pending _ _), hseq,
    (congrArg State.mode heffect).trans (effect_mode _ _), hcmd⟩

/-- How many control-port writes of 0x00 the sequencer needs, at most, to come to ExpectCommand. -/
def zeroWritesToCommand : Seq → Nat
  | .expectMode => 3
  | .expectSync1 => 2
  | .expectSync2 => 1
  | .expectCommand => 0

/-- A control-port write of 0x00 brings the sequencer nearer to ExpectCommand, where it stays. -/
theorem zeroWritesToCommand_after_zero (q : Seq) (m : Byte) :
    zeroWritesToCommand (seqAfterInstr (decodeControl q 0x00#8) q m) ≤ zeroWritesToCommand q - 1 := by
  cases q with
  | expectMode | expectSync2 | expectCommand => exact le_rfl
  | expectSync1 =>
    rw [decodeControl, seqAfterInstr]
    split <;> decide

theorem seq_eq_expectCommand {q : Seq} (h : zeroWritesToCommand q ≤ 0) : q = .expectCommand := by
  cases q with
  | expectCommand => rfl
  | expectMode | expectSync1 | expectSync2 => simp [zeroWritesToCommand] at h

/-- Settles O18: three writes of 0x00 reach ExpectCommand, where 0x40 is CMD_IR. -/
theorem safeResetIdiom : Obligations.SafeResetIdiom := by
  intro s rest hreset hp
  obtain ⟨s₁, hstep₁, hreset₁, hp₁, hseq₁, -⟩ := step_controlWord_completes hreset hp
  obtain ⟨s₂, hstep₂, hreset₂, hp₂, hseq₂, -⟩ := step_controlWord_completes hreset₁ hp₁
  obtain ⟨s₃, hstep₃, hreset₃, hp₃, hseq₃, -⟩ := step_controlWord_completes hreset₂ hp₂
  obtain ⟨s₄, hstep₄, -, hp₄, hseq₄, hmode₄, hcmd₄⟩ := step_controlWord_completes hreset₃ hp₃
  have hcommand : s₃.seq = .expectCommand := by
    have h₁ := zeroWritesToCommand_after_zero s.seq s.mode
    have h₂ := zeroWritesToCommand_after_zero s₁.seq s₁.mode
    have h₃ := zeroWritesToCommand_after_zero s₂.seq s₂.mode
    have hfar : zeroWritesToCommand s.seq ≤ 3 := by cases s.seq <;> decide
    rw [← hseq₁] at h₁
    rw [← hseq₂] at h₂
    rw [← hseq₃] at h₃
    exact seq_eq_expectCommand (by omega)
  have hir : decodeControl s₃.seq 0x40#8 = .cmdIr 0x40#8 := by rw [hcommand]; rfl
  rw [hir] at hseq₄ hmode₄ hcmd₄
  exact ⟨s₄, by simp [runSteps, hstep₁, hstep₂, hstep₃, hstep₄], hseq₄, hmode₄, hcmd₄, hp₄⟩

end Sys2Proof.Machine
end

section
/-! SUPPORT. The transmitter and the receiver as parts of the state: a clock edge moves its own part by what a few other fields say,
whatever the rest of the state is (20_memory R60). -/

namespace Sys2Proof.Machine

/-- `t` with the transmitter of `s`: the fields that a bit tick may write. -/
def State.withTransmitter (t s : State) : State := { t with tx := s.tx, txDiv := s.txDiv, thre := s.thre }

/-- `t` with the receiver of `s`: the fields that a sample may write. -/
def State.withReceiver (t s : State) : State :=
  { t with rx := s.rx, hunt := s.hunt, huntHist := s.huntHist, syndet := s.syndet, rdr := s.rdr, rxrdy := s.rxrdy,
           pe := s.pe, oe := s.oe, fe := s.fe }

/-! ### The transmitter -/

theorem txLoad_withTransmitter {t s : State} (hmode : t.mode = s.mode) (hthr : t.thr = s.thr) :
    txLoad (t.withTransmitter s) = t.withTransmitter (txLoad s) := by
  simp only [txLoad, State.withTransmitter, hmode, hthr]

/-- A bit tick reads the mode, THR and transmit enable beside the transmitter. -/
theorem txBitTick_withTransmitter {t s : State} (hmode : t.mode = s.mode) (hthr : t.thr = s.thr)
    (henabled : txEnabled t = txEnabled s) :
    txBitTick (t.withTransmitter s) = t.withTransmitter (txBitTick s) := by
  have henabled' : txEnabled (t.withTransmitter s) = txEnabled s := henabled
  rw [txBitTick, txBitTick, apply_ite t.withTransmitter, apply_ite t.withTransmitter, henabled',
    txLoad_withTransmitter hmode hthr]
  rfl

theorem txcFalling_withTransmitter {t s : State} (hmode : t.mode = s.mode) (hthr : t.thr = s.thr)
    (henabled : txEnabled t = txEnabled s) :
    txcFalling (t.withTransmitter s) = t.withTransmitter (txcFalling s) := by
  have ht : { t with mode := s.mode } = t := hmode ▸ rfl
  have htick : txBitTick (t.withTransmitter { s with txDiv := 0 }) = t.withTransmitter (txBitTick { s with txDiv := 0 }) :=
    txBitTick_withTransmitter hmode hthr henabled
  rw [← ht] at htick ⊢
  rw [txcFalling, txcFalling, apply_ite (State.withTransmitter _), ← htick]
  rfl

/-- What a write of `v` to PIN_TXC does to the transmitter (42_transmitter R132). -/
def txEdge (v : Bit) (s : State) : State := if s.pins.txc = true ∧ v = false then txcFalling s else s

theorem txEdge_withTransmitter {v : Bit} {t s : State} (hmode : t.mode = s.mode) (hthr : t.thr = s.thr)
    (henabled : txEnabled t = txEnabled s) (htxc : t.pins.txc = s.pins.txc) :
    txEdge v (t.withTransmitter s) = t.withTransmitter (txEdge v s) := by
  have htxc' : (t.withTransmitter s).pins.txc = s.pins.txc := htxc
  rw [txEdge, txEdge, apply_ite t.withTransmitter, txcFalling_withTransmitter hmode hthr henabled, htxc']

/-- PIN_TXC writes its latch and the transmitter. -/
theorem effect_pinTxc (v : Bit) (s : State) :
    effect (.pinTxc v) s = State.withTransmitter { s with pins := { s.pins with txc := v } } (txEdge v s) := by
  have hfalling : txcFalling { s with pins := { s.pins with txc := v } } = State.withTransmitter _ (txcFalling s) :=
    txcFalling_withTransmitter (t := { s with pins := { s.pins with txc := v } }) (s := s) rfl rfl rfl
  rw [txEdge, apply_ite (State.withTransmitter _), ← hfalling]
  rfl

/-! ### The receiver -/

theorem rxAsyncSample_withReceiver {v : Bit} {t s : State} (hmode : t.mode = s.mode) :
    rxAsyncSample v (t.withReceiver s) = t.withReceiver (rxAsyncSample v s) := by
  have ht : { t with mode := s.mode } = t := hmode ▸ rfl
  rw [← ht]
  have hstate (t : State) : (t.withReceiver s).rx.state = s.rx.state := rfl
  cases h : s.rx.state
  all_goals
    simp only [rxAsyncSample, rxStartCentre, rxFrameBit, hstate, h, apply_ite (State.withReceiver _)]
    rfl

theorem rxSyncSample_withReceiver {v : Bit} {t s : State} (hmode : t.mode = s.mode) (hsync1 : t.sync1 = s.sync1)
    (hsync2 : t.sync2 = s.sync2) :
    rxSyncSample v (t.withReceiver s) = t.withReceiver (rxSyncSample v s) := by
  have ht : { t with mode := s.mode, sync1 := s.sync1, sync2 := s.sync2 } = t := by rw [← hmode, ← hsync1, ← hsync2]
  rw [← ht]
  simp only [rxSyncSample, rxHuntSample, apply_ite (State.withReceiver _)]
  rfl

/-- A sample reads the mode and the sync characters beside the receiver. -/
theorem rxSample_withReceiver {v : Bit} {t s : State} (hmode : t.mode = s.mode) (hsync1 : t.sync1 = s.sync1)
    (hsync2 : t.sync2 = s.sync2) :
    rxSample v (t.withReceiver s) = t.withReceiver (rxSample v s) := by
  have hmode' : (t.withReceiver s).mode = s.mode := hmode
  rw [rxSample, rxSample, apply_ite t.withReceiver, rxSyncSample_withReceiver hmode hsync1 hsync2,
    rxAsyncSample_withReceiver hmode, hmode']

/-- What a write of `v` to PIN_RXC does to the receiver (43_receiver R151). -/
def rxEdge (v : Bit) (s : State) : State :=
  if s.pins.rxc = false ∧ v = true ∧ cmdRxE s.cmd = true then rxSample s.pins.rxd s else s

theorem rxEdge_withReceiver {v : Bit} {t s : State} (hmode : t.mode = s.mode) (hsync1 : t.sync1 = s.sync1)
    (hsync2 : t.sync2 = s.sync2) (hRxE : cmdRxE t.cmd = cmdRxE s.cmd) (hrxc : t.pins.rxc = s.pins.rxc)
    (hrxd : t.pins.rxd = s.pins.rxd) :
    rxEdge v (t.withReceiver s) = t.withReceiver (rxEdge v s) := by
  have hRxE' : cmdRxE (t.withReceiver s).cmd = cmdRxE s.cmd := hRxE
  have hrxc' : (t.withReceiver s).pins.rxc = s.pins.rxc := hrxc
  have hrxd' : (t.withReceiver s).pins.rxd = s.pins.rxd := hrxd
  rw [rxEdge, rxEdge, apply_ite t.withReceiver, hRxE', hrxc', hrxd', rxSample_withReceiver hmode hsync1 hsync2]

/-- PIN_RXC writes its latch and the receiver. -/
theorem effect_pinRxc (v : Bit) (s : State) :
    effect (.pinRxc v) s = State.withReceiver { s with pins := { s.pins with rxc := v } } (rxEdge v s) := by
  have hsample : rxSample s.pins.rxd { s with pins := { s.pins with rxc := v } }
      = State.withReceiver _ (rxSample s.pins.rxd s) :=
    rxSample_withReceiver (t := { s with pins := { s.pins with rxc := v } }) (s := s) rfl rfl rfl
  rw [rxEdge, apply_ite (State.withReceiver _), ← hsample]
  rfl

end Sys2Proof.Machine
end

section
/-! PROOF. What has no effect on what: the mask register (60_exceptions section 2), the stored action bits of a command byte
(10_state section 1), and one clock on the other (20_memory section 4). -/

namespace Sys2Proof.Machine

/-- Settles O54: no other stimulus reads the mask register, so none sees the byte in it. -/
theorem maskGatesNothing : Obligations.MaskGatesNothing :=
  fun _ k s hi hreset => exec_mapMaskPort (has := id) (mask := fun _ => k) hi hreset s

/-! ### The stored action bits (R112, R113) -/

/-- The answer of a bus access follows a change of the state, where the access does. -/
theorem busAccess_map {f : State → State} {s s' after after' : State} (hreset : s'.wasReset = s.wasReset)
    (hafter : after' = f after) : busAccess s' after' = mapAnswer f (busAccess s after) := by
  rw [busAccess, busAccess, apply_ite (mapAnswer f), hreset, hafter]
  rfl

theorem maskPort_map {f : State → State} {s s' after after' : State} (hparams : s'.params = s.params)
    (hreset : s'.wasReset = s.wasReset) (hafter : after' = f after) :
    maskPort s' after' = mapAnswer f (maskPort s after) := by
  rw [maskPort, maskPort, apply_ite (mapAnswer f), hparams, busAccess_map hreset hafter]
  rfl

theorem pinWrite_map {f : State → State} {latched latched' after after' : State}
    (hreset : latched'.wasReset = latched.wasReset) (hlatched : quiet latched' = f (quiet latched))
    (hafter : after' = f after) : pinWrite latched' after' = mapAnswer f (pinWrite latched after) := by
  rw [pinWrite, pinWrite, apply_ite (mapAnswer f), hreset, hlatched, hafter]
  rfl

/-- The same state with the bits of `k` flipped in the stored command byte. -/
def State.flipCmd (k : Byte) (s : State) : State := { s with cmd := s.cmd ^^^ k }

/-- Bits 4 and 7 are ER and EH; every other bit of a byte `k` of those is 0. -/
abbrev ActionBits (k : Byte) : Prop := k &&& 0x6F#8 = 0x00#8

/-- A bit of the command byte that is not an action bit is not flipped. -/
theorem getLsbD_flip {k : Byte} (hk : ActionBits k) (c : Byte) {j : Nat} (hj : (0x6F#8).getLsbD j = true) :
    (c ^^^ k).getLsbD j = c.getLsbD j := by
  have hbit : k.getLsbD j = false := by
    simpa only [BitVec.getLsbD_and, hj, Bool.and_true, BitVec.getLsbD_zero] using congrArg (BitVec.getLsbD · j) hk
  rw [BitVec.getLsbD_xor, hbit, Bool.xor_false]

section
variable {k : Byte} (hk : ActionBits k)
include hk

theorem txEnabled_flipCmd (s : State) : txEnabled (s.flipCmd k) = txEnabled s :=
  congrArg (· && !s.pins.cts) (getLsbD_flip hk s.cmd rfl)

theorem levels_flipCmd (s : State) : levels (s.flipCmd k) = levels s := by
  have hDtr : cmdDtr (s.flipCmd k).cmd = cmdDtr s.cmd := getLsbD_flip hk s.cmd rfl
  have hRts : cmdRts (s.flipCmd k).cmd = cmdRts s.cmd := getLsbD_flip hk s.cmd rfl
  have hSbrk : cmdSbrk (s.flipCmd k).cmd = cmdSbrk s.cmd := getLsbD_flip hk s.cmd rfl
  simp only [levels, dtrLevel, rtsLevel, txdLevel, txrdyLevel, hDtr, hRts, hSbrk, txEnabled_flipCmd hk]
  rfl

theorem updateOutputs_flipCmd (forced : List OutPin) (s : State) :
    updateOutputs forced (s.flipCmd k) = (updateOutputs forced s).flipCmd k := by
  simp only [updateOutputs, emissions, levels_flipCmd hk]
  rfl

theorem statusByte_flipCmd (s : State) : statusByte (s.flipCmd k) = statusByte s := by
  simp only [statusByte, statusTxrdy, txrdyLevel, txEnabled_flipCmd hk]
  rfl

theorem txrdyFlag_flipCmd (s : State) : flagAt (txrdyLevel (s.flipCmd k)) 0 = flagAt (txrdyLevel s) 0 :=
  congrArg (fun enabled => flagAt (s.thre && enabled) 0) (txEnabled_flipCmd hk s)

/-- What a stimulus does is the same with action bits flipped, and those bits stay flipped. -/
theorem effect_flipCmd {i : Instr} (hi : i.writesCommand = false) (s : State) :
    effect i (s.flipCmd k) = (effect i s).flipCmd k := by
  have hRxE : cmdRxE (s.flipCmd k).cmd = cmdRxE s.cmd := getLsbD_flip hk s.cmd rfl
  cases i with
  | cmdW | cmdIr | reset => simp [Instr.writesCommand] at hi
  | modeW | sync1W | sync2W | maskW | statusR | maskR | txrdyR | pinRxd | pinCts | pinDsr => rfl
  | dataW | dataR =>
    rw [effect, effect, apply_ite (State.flipCmd k)]
    rfl
  | pinSyn =>
    rw [effect, effect, apply_ite (State.flipCmd k), hRxE]
    rfl
  | pinTxc v =>
    have hedge : txEdge v (s.flipCmd k) = (s.flipCmd k).withTransmitter (txEdge v s) :=
      txEdge_withTransmitter (t := s.flipCmd k) (s := s) rfl rfl (txEnabled_flipCmd hk s) rfl
    rw [effect_pinTxc, effect_pinTxc, hedge]
    rfl
  | pinRxc v =>
    have hedge : rxEdge v (s.flipCmd k) = (s.flipCmd k).withReceiver (rxEdge v s) :=
      rxEdge_withReceiver (t := s.flipCmd k) (s := s) rfl rfl rfl hRxE rfl rfl
    rw [effect_pinRxc, effect_pinRxc, hedge]
    rfl

theorem updateOutputs_effect_flipCmd (i : Instr) (hi : i.writesCommand = false) (s : State) :
    updateOutputs [] (effect i (s.flipCmd k)) = (updateOutputs [] (effect i s)).flipCmd k := by
  rw [effect_flipCmd hk hi, updateOutputs_flipCmd hk]

end

/-- Settles O20: the bits that a stimulus or a level reads of the command byte are the others; a command, CMD_IR and RESET overwrite
the byte. -/
theorem storedActionBitsAreDead : Obligations.StoredActionBitsAreDead := by
  intro i k s hk
  have hupdated (i : Instr) (hi : i.writesCommand = false) := updateOutputs_effect_flipCmd hk i hi s
  cases i with
  | cmdW | cmdIr => exact busAccess_map rfl rfl
  | reset => rfl
  | dataW b => exact busAccess_map rfl (hupdated (.dataW b) rfl)
  | modeW b => exact busAccess_map rfl (hupdated (.modeW b) rfl)
  | sync1W b => exact busAccess_map rfl (hupdated (.sync1W b) rfl)
  | sync2W b => exact busAccess_map rfl (hupdated (.sync2W b) rfl)
  | dataR => exact busAccess_map rfl (congrArg (returning s.rdr) (hupdated .dataR rfl))
  | maskW b => exact maskPort_map rfl rfl (hupdated (.maskW b) rfl)
  | maskR => exact maskPort_map rfl rfl rfl
  | statusR => exact busAccess_map rfl (congrArg (returning · (quiet (s.flipCmd k))) (statusByte_flipCmd hk s))
  | txrdyR => exact busAccess_map rfl (congrArg (returning · (quiet (s.flipCmd k))) (txrdyFlag_flipCmd hk s))
  | pinRxd v => exact pinWrite_map rfl rfl (hupdated (.pinRxd v) rfl)
  | pinCts v => exact pinWrite_map rfl rfl (hupdated (.pinCts v) rfl)
  | pinDsr v => exact pinWrite_map rfl rfl (hupdated (.pinDsr v) rfl)
  | pinTxc v => exact pinWrite_map rfl rfl (hupdated (.pinTxc v) rfl)
  | pinRxc v => exact pinWrite_map rfl rfl (hupdated (.pinRxc v) rfl)
  | pinSyn v => exact pinWrite_map rfl rfl (hupdated (.pinSyn v) rfl)

/-! ### The two clocks (20_memory R60) -/

/-- The state after a write of `v` to PIN_TXC, which updates its latch, the transmitter and the outputs. -/
def txcWritten (v : Bit) (s : State) : State :=
  updateOutputs [] (State.withTransmitter { s with pins := { s.pins with txc := v } } (txEdge v s))

/-- The state after a write of `v` to PIN_RXC, which updates its latch, the receiver and the outputs. -/
def rxcWritten (v : Bit) (s : State) : State :=
  updateOutputs [] (State.withReceiver { s with pins := { s.pins with rxc := v } } (rxEdge v s))

theorem exec_pinTxc {v : Bit} {s : State} (h : s.wasReset = true) : exec (.pinTxc v) s = .next (txcWritten v s) := by
  rw [txcWritten, ← effect_pinTxc]
  exact pinWrite_of_wasReset h _

theorem exec_pinRxc {v : Bit} {s : State} (h : s.wasReset = true) : exec (.pinRxc v) s = .next (rxcWritten v s) := by
  rw [rxcWritten, ← effect_pinRxc]
  exact pinWrite_of_wasReset h _

/-- Settles O28: each clock writes its latch and its own part of the state, and the levels of the other pins do not read those. -/
theorem clocksTouchDisjointState : Obligations.ClocksTouchDisjointState := by
  intro v s t
  refine ⟨fun h => ?txc, fun h => ?rxc⟩
  case txc =>
    cases hreset : s.wasReset with
    | false =>
      obtain rfl := Host.Outcome.next.inj ((pinWrite_of_unreset hreset _).symm.trans h)
      exact ⟨rfl, fun _ e he => absurd he List.not_mem_nil⟩
    | true =>
      obtain rfl := Host.Outcome.next.inj ((exec_pinTxc hreset).symm.trans h)
      refine ⟨rfl, fun hs e he => ?_⟩
      obtain ⟨p, lv⟩ := e
      cases p with
      | txd => exact .inl rfl
      | txrdy => exact .inr (.inl rfl)
      | txempty => exact .inr (.inr rfl)
      | dtr | rts | rxrdy | syndet => exact absurd he (exec_not_emitted hs h List.not_mem_nil rfl lv)
  case rxc =>
    cases hreset : s.wasReset with
    | false =>
      obtain rfl := Host.Outcome.next.inj ((pinWrite_of_unreset hreset _).symm.trans h)
      exact ⟨rfl, fun _ e he => absurd he List.not_mem_nil⟩
    | true =>
      obtain rfl := Host.Outcome.next.inj ((exec_pinRxc hreset).symm.trans h)
      refine ⟨rfl, fun hs e he => ?_⟩
      obtain ⟨p, lv⟩ := e
      cases p with
      | rxrdy => exact .inl rfl
      | syndet => exact .inr rfl
      | dtr | rts | txd | txrdy | txempty => exact absurd he (exec_not_emitted hs h List.not_mem_nil rfl lv)

/-- After a write of TxC the receiver's edge finds the receiver and all that it reads as before. -/
theorem rxEdge_txcWritten (u v : Bit) (s : State) :
    rxEdge v (txcWritten u s) = (txcWritten u s).withReceiver (rxEdge v s) :=
  rxEdge_withReceiver (t := txcWritten u s) (s := s) rfl rfl rfl rfl rfl rfl

/-- After a write of RxC the transmitter's edge finds the transmitter and all that it reads as before. -/
theorem txEdge_rxcWritten (u v : Bit) (s : State) :
    txEdge u (rxcWritten v s) = (rxcWritten v s).withTransmitter (txEdge u s) :=
  txEdge_withTransmitter (t := rxcWritten v s) (s := s) rfl rfl rfl rfl

/-- Two stimuli that complete one after the other. -/
theorem run_pair {i j : Instr} {s t u : State} (hi : exec i s = .next t) (hj : exec j t = .next u) :
    run [i, j] s = .next u := by
  simp [run, hi, hj]

/-- Settles O29: each edge moves its own part of the state, whatever the other clock's write did before. -/
theorem clocksCommute : Obligations.ClocksCommute := by
  intro u v s
  cases hreset : s.wasReset with
  | false =>
    exact ⟨_, _, run_pair (pinWrite_of_unreset hreset _) (pinWrite_of_unreset hreset _),
      run_pair (pinWrite_of_unreset hreset _) (pinWrite_of_unreset hreset _), rfl⟩
  | true =>
    refine ⟨_, _, run_pair (exec_pinTxc hreset) (exec_pinRxc hreset),
      run_pair (exec_pinRxc hreset) (exec_pinTxc hreset), ?_⟩
    rw [rxcWritten, rxEdge_txcWritten, txcWritten.eq_def u (rxcWritten v s), txEdge_rxcWritten]
    rfl

end Sys2Proof.Machine
end

section
/-! PROOF. A frame in the transmitter: what moves it (42_transmitter section 2), and the clocking out of a waiting byte. -/

namespace Sys2Proof.Machine

/-! ### What a stimulus does to the transmitter shift state -/

/-- The stimulus abandons a frame: MODE_W (40_sequencer R101) and the two resets (70_reset_and_hazards R231). -/
abbrev AbandonsFrame (i : Instr) : Prop := (∃ b, i = .modeW b) ∨ (∃ b, i = .cmdIr b) ∨ i = .reset

/-- The stimulus is a falling edge of TxC, which the divider counts (42_transmitter R132). -/
abbrev CountedEdge (i : Instr) (s : State) : Prop := i = .pinTxc false ∧ s.pins.txc = true

theorem countedEdge_pinTxc {v : Bit} {s : State} : CountedEdge (.pinTxc v) s ↔ s.pins.txc = true ∧ v = false := by
  rw [CountedEdge, Instr.pinTxc.injEq, and_comm]

/-- What a stimulus does to the transmitter shift state and the divider: it abandons the frame, counts an edge, or leaves both. -/
theorem effect_tx_cases (i : Instr) (s : State) :
    (AbandonsFrame i ∧ (effect i s).tx = .idle ∧ (effect i s).txDiv = 0)
      ∨ (CountedEdge i s ∧ (effect i s).tx = (txcFalling s).tx ∧ (effect i s).txDiv = (txcFalling s).txDiv)
      ∨ (¬AbandonsFrame i ∧ ¬CountedEdge i s ∧ (effect i s).tx = s.tx ∧ (effect i s).txDiv = s.txDiv) := by
  cases i with
  | modeW | cmdIr | reset => exact .inl ⟨by simp [AbandonsFrame], rfl, rfl⟩
  | pinTxc v =>
    rw [countedEdge_pinTxc, effect_pinTxc, txEdge]
    by_cases hedge : s.pins.txc = true ∧ v = false
    · rw [if_pos hedge]
      exact .inr (.inl ⟨hedge, rfl, rfl⟩)
    · rw [if_neg hedge]
      exact .inr (.inr ⟨by simp [AbandonsFrame], hedge, rfl, rfl⟩)
  | pinRxc v =>
    rw [effect_pinRxc]
    exact .inr (.inr ⟨by simp [AbandonsFrame], by simp [CountedEdge], rfl, rfl⟩)
  | cmdW b =>
    exact .inr (.inr ⟨by simp [AbandonsFrame], by simp [CountedEdge], applyCommand_tx b s, applyCommand_txDiv b s⟩)
  | sync1W | sync2W | maskW | statusR | maskR | txrdyR | pinRxd | pinCts | pinDsr =>
    exact .inr (.inr ⟨by simp [AbandonsFrame], by simp [CountedEdge], rfl, rfl⟩)
  | dataW | dataR | pinSyn =>
    refine .inr (.inr ⟨by simp [AbandonsFrame], by simp [CountedEdge], ?_⟩)
    rw [effect]
    split <;> exact ⟨rfl, rfl⟩

/-- Settles O30: of the three things a stimulus can do to the shift state, a counted edge moves it only when it is a bit tick. -/
theorem frameInFlightCompletes : Obligations.FrameInFlightCompletes := by
  intro i s t h hbusy hpos
  rcases exec_cases h with ⟨hreset, heffect⟩ | ⟨hunreset, hpin, rfl⟩
  case inr =>
    refine ⟨?_, fun ⟨hreset, _⟩ => absurd (hunreset.symm.trans hreset) Bool.false_ne_true, fun _ _ => rfl⟩
    rintro (⟨b, rfl⟩ | ⟨b, rfl⟩ | rfl) <;> simp [Instr.isPinWrite] at hpin
  case inl =>
    have htx : t.tx = (effect i s).tx := (congrArg State.tx heffect :)
    rcases effect_tx_cases i s with ⟨habandons, hidle, -⟩ | ⟨⟨rfl, htxc⟩, hedge, -⟩ | ⟨hkeeps, hno, hsame, -⟩
    · refine ⟨fun _ => htx.trans hidle, fun ⟨_, hi, _⟩ => ?_, fun hkeeps => absurd habandons hkeeps⟩
      simp [AbandonsFrame, hi] at habandons
    · refine ⟨by simp, fun ⟨_, _, _, hdiv⟩ => ?tick, fun _ hno => ?counted⟩
      case tick =>
        obtain ⟨b, hb, htick⟩ := txBitTick_of_bitsLeft (s := { s with txDiv := 0 }) ⟨hbusy, hpos⟩
        exact ⟨b, hb, by rw [htx, hedge, txcFalling_of_le hdiv, htick]⟩
      case counted =>
        have hlt : s.txDiv + 1 < factor s.mode :=
          Nat.lt_of_not_le fun hdiv => hno ⟨hreset.resolve_right (by simp), rfl, htxc, hdiv⟩
        rw [htx, hedge, txcFalling_of_lt hlt]
    · exact ⟨fun habandons => absurd habandons hkeeps, fun ⟨_, hi, htxc, _⟩ => absurd ⟨hi, htxc⟩ hno,
        fun _ _ => htx.trans hsame⟩

/-- Settles O32: no bit of the old frame is left, so the bit tick loads. -/
theorem backToBack : Obligations.BackToBack := by
  intro s hreset hbusy hpos hfull hTxEn hcts htxc hdiv
  have hload : txEdge false s = txLoad { s with txDiv := 0 } := by
    rw [txEdge, if_pos ⟨htxc, rfl⟩, txcFalling_of_le hdiv]
    exact txBitTick_of_load (s := { s with txDiv := 0 }) (fun ⟨_, hlt⟩ => absurd hpos hlt.ne)
      ⟨hfull, (txEnabled_iff s).2 ⟨hTxEn, hcts⟩⟩
  refine ⟨_, exec_pinTxc hreset, ?_⟩
  rw [txcWritten, hload]
  exact ⟨rfl, rfl, rfl, txFrameOf_head s.thr s.mode, rfl, rfl⟩

/-! ### Counted edges and bit ticks, without the pin -/

theorem withTxDiv_zero {s : State} (hdiv : s.txDiv = 0) : { s with txDiv := 0 } = s := by
  rw [← hdiv]

/-- Below the factor, edges from a divider at 0 are only counted. -/
theorem iterate_txcFalling_of_lt {s : State} (hdiv : s.txDiv = 0) {j : Nat} (hj : j < factor s.mode) :
    txcFalling^[j] s = { s with txDiv := j } := by
  induction j with
  | zero => exact (withTxDiv_zero hdiv).symm
  | succ j ih =>
    rw [Function.iterate_succ_apply', ih (by omega)]
    exact txcFalling_of_lt (s := { s with txDiv := j }) hj

/-- From a divider at 0, `factor` edges are one bit tick. -/
theorem iterate_txcFalling_factor {s : State} (hdiv : s.txDiv = 0) :
    txcFalling^[factor s.mode] s = txBitTick s := by
  obtain ⟨j, hj⟩ : ∃ j, factor s.mode = j + 1 := Nat.exists_eq_succ_of_ne_zero (factor_pos s.mode).ne'
  rw [hj, Function.iterate_succ_apply', iterate_txcFalling_of_lt hdiv (by omega),
    txcFalling_of_le (s := { s with txDiv := j }) hj.le]
  exact congrArg txBitTick (withTxDiv_zero hdiv)

/-- A bit tick leaves the divider and the mode alone, so `k` times `factor` edges are `k` bit ticks. -/
theorem iterate_txcFalling_mul {s : State} (hdiv : s.txDiv = 0) (k : Nat) :
    txcFalling^[k * factor s.mode] s = txBitTick^[k] s := by
  induction k generalizing s with
  | zero => rw [Nat.zero_mul]; rfl
  | succ k ih =>
    rw [Nat.succ_mul, Function.iterate_add_apply, iterate_txcFalling_factor hdiv, Function.iterate_succ_apply,
      ← ih ((txBitTick_txDiv s).trans hdiv), txBitTick_mode]

/-- The shift state with `k` bits of the frame on the line so far, the last of them now. -/
def sentBits (frame : List Bit) (k : Nat) : TxShift :=
  { busy := true, frame := frame, pos := k, line := frame.getD (k - 1) true }

theorem sentBits_line {frame : List Bit} {k : Nat} (hk : 1 ≤ k) (hlen : k ≤ frame.length) :
    frame[k - 1]? = some (sentBits frame k).line := by
  have hlt : k - 1 < frame.length := by omega
  simp [sentBits, List.getD, hlt]

/-- A byte waits in THR of an enabled transmitter that is not in mid-frame. -/
abbrev State.ReadyToLoad (s : State) : Prop :=
  s.thre = false ∧ txEnabled s = true ∧ ¬(s.tx.busy = true ∧ s.tx.pos < s.tx.frame.length)

/-- Each bit tick puts the next bit of the waiting byte's frame on the line. -/
theorem iterate_txBitTick_sending {s : State} (hready : s.ReadyToLoad) {k : Nat} (hk : 1 ≤ k)
    (hlen : k ≤ (txFrameOf s.thr s.mode).length) :
    txBitTick^[k] s = { s with tx := sentBits (txFrameOf s.thr s.mode) k, thre := true } := by
  obtain ⟨hfull, henabled, hno⟩ := hready
  induction k, hk using Nat.le_induction with
  | base =>
    rw [Function.iterate_one, txBitTick_of_load hno ⟨hfull, henabled⟩, txLoad, sentBits]
    simp [List.getD, txFrameOf_head]
  | succ k hk ih =>
    rw [Function.iterate_succ_apply', ih (by omega)]
    exact if_pos ⟨rfl, hlen⟩

/-- The bit tick after the last bit finds THR empty and idles the transmitter. -/
theorem iterate_txBitTick_sent {s : State} (hready : s.ReadyToLoad) :
    txBitTick^[(txFrameOf s.thr s.mode).length + 1] s = { s with tx := .idle, thre := true } := by
  have hlen : 1 ≤ (txFrameOf s.thr s.mode).length := le_trans (by decide) (txFrameOf_bounds s.thr s.mode).1
  rw [Function.iterate_succ_apply', iterate_txBitTick_sending hready hlen le_rfl]
  exact txBitTick_of_idle (fun ⟨_, hlt⟩ => absurd hlt (lt_irrefl _)) (by simp)

/-! ### TxC ticks at the pin -/

/-- The state without what it holds in the TxC latch and on the output side, neither of which a bit tick reads. -/
def State.txcBlind (s : State) : State :=
  { s with pins := { s.pins with txc := false }, out := .afterReset, events := [], value := none }

theorem withTransmitter_txcFalling (s : State) : s.withTransmitter (txcFalling s) = txcFalling s :=
  (txcFalling_withTransmitter (t := s) (s := s) rfl rfl rfl).symm

theorem txcFalling_txcBlind (s : State) : txcFalling s.txcBlind = (txcFalling s).txcBlind := by
  have hpart : txcFalling s.txcBlind = s.txcBlind.withTransmitter (txcFalling s) :=
    txcFalling_withTransmitter (t := s.txcBlind) (s := s) rfl rfl rfl
  rw [hpart, ← withTransmitter_txcFalling s]
  rfl

/-- The falling edge of a tick is counted, whatever the outputs were before. -/
theorem txcWritten_false_txcBlind {s : State} (htxc : s.pins.txc = true) :
    (txcWritten false s).txcBlind = txcFalling s.txcBlind := by
  rw [txcWritten, txEdge, if_pos ⟨htxc, rfl⟩, txcFalling_txcBlind, ← withTransmitter_txcFalling s]
  rfl

/-- A tick is a rising edge, which moves nothing, and a counted falling edge. -/
theorem run_txTick {s : State} (hreset : s.wasReset = true) (rest : List Instr) :
    ∃ t, run (.pinTxc true :: .pinTxc false :: rest) s = run rest t ∧ t.txcBlind = txcFalling s.txcBlind
      ∧ t.Settled := by
  refine ⟨txcWritten false (txcWritten true s), ?_, ?_, rfl⟩
  · simp [run, exec_pinTxc hreset, exec_pinTxc (s := txcWritten true s) hreset]
  · rw [txcWritten_false_txcBlind rfl, txcWritten, txEdge, if_neg (by simp)]
    rfl

/-- After `k` ticks the outputs stand at their levels, and all that a tick reads is as `k` counted edges leave it. -/
theorem run_txTicks {s : State} (hreset : s.wasReset = true) {k : Nat} (hk : 1 ≤ k) :
    ∃ t, run (txTicks k) s = .next t ∧ t.txcBlind = txcFalling^[k] s.txcBlind ∧ t.Settled := by
  induction k, hk using Nat.le_induction generalizing s with
  | base => exact run_txTick hreset []
  | succ k hk ih =>
    obtain ⟨t, hrun, hblind, -⟩ := run_txTick hreset (txTicks k)
    have hreset' : t.wasReset = true := by
      have h := congrArg State.wasReset hblind
      rw [txcFalling_wasReset] at h
      exact h.trans hreset
    obtain ⟨u, hrun', hblind', hs⟩ := ih hreset'
    exact ⟨u, hrun.trans hrun', by rw [hblind', hblind, Function.iterate_succ_apply], hs⟩

/-- Settles O31: `k` times `factor` ticks are `k` bit ticks, of which each puts one bit of the frame on the line. -/
theorem frameIsClockedOut : Obligations.FrameIsClockedOut := by
  intro s hreset hfull hTxEn hcts hno hdiv
  have henabled : txEnabled s = true := (txEnabled_iff s).2 ⟨hTxEn, hcts⟩
  have hready : s.txcBlind.ReadyToLoad := ⟨hfull, henabled, hno⟩
  have hticks (k : Nat) (hk : 1 ≤ k) : ∃ t, run (txTicks (k * factor s.mode)) s = .next t
      ∧ t.txcBlind = txBitTick^[k] s.txcBlind ∧ t.Settled := by
    rw [← iterate_txcFalling_mul (s := s.txcBlind) hdiv]
    exact run_txTicks hreset (Nat.mul_pos hk (factor_pos s.mode))
  refine ⟨fun k hk hlen => ?sending, ?sent⟩
  case sending =>
    obtain ⟨t, hrun, hblind, hs⟩ := hticks k hk
    rw [iterate_txBitTick_sending hready hk hlen] at hblind
    have htx : t.tx = sentBits (txFrameOf s.thr s.mode) k := (congrArg State.tx hblind :)
    have hthre : t.thre = true := (congrArg State.thre hblind :)
    have hcmd : t.cmd = s.cmd := (congrArg State.cmd hblind :)
    have henabled' : txEnabled t = txEnabled s := (congrArg txEnabled hblind :)
    refine ⟨t, hrun, ?_, ?_, ?_, ?_, ?_, ?_, ?_⟩
    · rw [htx, sentBits]
    · rw [htx, sentBits]
    · rw [htx, sentBits]
    · rw [htx]; exact sentBits_line hk hlen
    · rw [hs, ← hcmd]; rfl
    · rw [hs]; simp [levels, txrdyLevel, hthre, henabled', henabled]
    · rw [hs]; simp [levels, txemptyLevel, htx, sentBits]
  case sent =>
    obtain ⟨t, hrun, hblind, hs⟩ := hticks ((txFrameOf s.thr s.mode).length + 1) (Nat.le_add_left 1 _)
    have hsent := hblind.trans (iterate_txBitTick_sent hready)
    have htx : t.tx = .idle := (congrArg State.tx hsent :)
    have hthre : t.thre = true := (congrArg State.thre hsent :)
    have henabled' : txEnabled t = txEnabled s := (congrArg txEnabled hsent :)
    refine ⟨t, hrun, htx, ?_, ?_⟩
    · rw [hs]; simp [levels, txrdyLevel, hthre, henabled', henabled]
    · rw [hs]; simp [levels, txemptyLevel, hthre, htx, TxShift.idle]

end Sys2Proof.Machine
end

section
/-! PROOF. The invariant (10_state section 6): device reset establishes it and every step keeps it. -/

namespace Sys2Proof.Machine

/-! ### The sequencer and the command byte (R39 item 1) -/

/-- The sequencer and the bits of a command byte that a stimulus leaves are as R39 asks, where decoding admits the stimulus. -/
theorem effect_seqOk {i : Instr} {s : State} (h : s.SeqOk) (hwf : i.wf = true) (hadmitted : i.admittedIn s.seq = true) :
    (effect i s).SeqOk := by
  obtain ⟨hcmd, hsync, hdouble, hir⟩ := h
  simp only [State.SeqOk, effect_seq, effect_mode, effect_cmd]
  cases i with
  | modeW b =>
    have hmode : s.seq = .expectMode := eq_of_beq hadmitted
    refine ⟨fun _ => hcmd (by simp [hmode]), ?_, ?_, hir⟩ <;>
      cases hb : syncMode b <;> simp [seqAfterInstr, modeAfter, hb]
  | sync1W b =>
    have hseq : s.seq = .expectSync1 := eq_of_beq hadmitted
    refine ⟨fun _ => hcmd (by simp [hseq]), fun _ => hsync (.inl hseq), ?_, hir⟩
    by_cases hn : nsync s.mode = 2 <;> simp [seqAfterInstr, modeAfter, hn]
  | sync2W b => exact ⟨fun hne => absurd rfl hne, by simp [seqAfterInstr], by simp [seqAfterInstr], hir⟩
  | cmdW b =>
    have hseq : s.seq = .expectCommand := eq_of_beq hadmitted
    exact ⟨fun hne => absurd hseq hne, hsync, hdouble, (Bool.not_eq_true' _).mp hwf⟩
  | cmdIr | reset =>
    exact ⟨fun _ => rfl, by simp [seqAfterInstr], by simp [seqAfterInstr], BitVec.getLsbD_zero⟩
  | dataW | maskW | dataR | statusR | maskR | txrdyR => exact ⟨hcmd, hsync, hdouble, hir⟩
  | pinRxd | pinCts | pinDsr | pinTxc | pinRxc | pinSyn => exact ⟨hcmd, hsync, hdouble, hir⟩

/-! ### The transmitter (R39 item 2) -/

theorem modeAfter_of_not_abandonsFrame {i : Instr} (h : ¬AbandonsFrame i) (m : Byte) : modeAfter i m = m := by
  cases i with
  | modeW | cmdIr | reset => simp [AbandonsFrame] at h
  | dataW | sync1W | sync2W | cmdW | maskW | dataR | statusR | maskR | txrdyR => rfl
  | pinRxd | pinCts | pinDsr | pinTxc | pinRxc | pinSyn => rfl

theorem txOk_of_eq {s t : State} (htx : t.tx = s.tx) (hdiv : t.txDiv = s.txDiv) (hmode : t.mode = s.mode)
    (h : s.TxOk) : t.TxOk := by
  simpa only [State.TxOk, htx, hdiv, hmode] using h

theorem txOk_of_idle {s : State} (htx : s.tx = .idle) (hdiv : s.txDiv < factor s.mode) : s.TxOk := by
  simp [State.TxOk, htx, hdiv, TxShift.idle]

/-- A bit tick keeps the shift state within its frame, with the bit last driven on the line. -/
theorem txBitTick_txOk {s : State} (h : s.TxOk) : (txBitTick s).TxOk := by
  obtain ⟨-, hbusy, hdiv⟩ := h
  rcases txBitTick_cases s with ⟨b, hb, hbit, htick⟩ | ⟨-, -, -, htick⟩ | ⟨-, -, htick⟩ <;> rw [htick]
  · obtain ⟨-, -, hlen, -⟩ := hbusy hb
    have hpos : s.tx.pos < s.tx.frame.length := (List.getElem?_eq_some_iff.1 hbit).1
    exact ⟨fun hidle => absurd (hb.symm.trans hidle) (by simp), fun _ => ⟨Nat.le_add_left 1 _, hpos, hlen, hbit⟩, hdiv⟩
  · obtain ⟨hmin, hmax⟩ := txFrameOf_bounds s.thr s.mode
    exact ⟨fun hidle => absurd hidle (by simp),
      fun _ => ⟨le_rfl, (show 1 ≤ 5 by decide).trans hmin, hmax, txFrameOf_head s.thr s.mode⟩, hdiv⟩
  · exact txOk_of_idle rfl hdiv

theorem txcFalling_txOk {s : State} (h : s.TxOk) : (txcFalling s).TxOk := by
  obtain ⟨hidle, hbusy, -⟩ := h
  by_cases hdiv : factor s.mode ≤ s.txDiv + 1
  · rw [txcFalling_of_le hdiv]
    exact txBitTick_txOk ⟨hidle, hbusy, factor_pos s.mode⟩
  · rw [txcFalling_of_lt (Nat.lt_of_not_le hdiv)]
    exact ⟨hidle, hbusy, Nat.lt_of_not_le hdiv⟩

theorem effect_txOk {i : Instr} {s : State} (h : s.TxOk) : (effect i s).TxOk := by
  rcases effect_tx_cases i s with ⟨-, htx, hdiv⟩ | ⟨⟨rfl, -⟩, htx, hdiv⟩ | ⟨hkeeps, -, htx, hdiv⟩
  · exact txOk_of_idle htx (hdiv ▸ factor_pos _)
  · exact txOk_of_eq htx hdiv (by simp [modeAfter]) (txcFalling_txOk h)
  · exact txOk_of_eq htx hdiv (by rw [effect_mode, modeAfter_of_not_abandonsFrame hkeeps]) h

/-! ### The receiver (R39 items 3 to 5) -/

/-- The part of the invariant that speaks of the receiver. -/
abbrev State.ReceiverOk (s : State) : Prop := s.RxAsyncOk ∧ s.RxSyncOk ∧ s.HuntOk

/-- The widths of the assembly state in async mode `m` (R30). -/
abbrev AssemblyOk (m : Byte) (rx : RxAssembly) : Prop :=
  (rx.state = .idle → rx.wait = 0 ∧ rx.bits = [])
    ∧ (rx.state = .start → 1 ≤ rx.wait ∧ rx.wait ≤ factor m / 2 ∧ rx.bits = [])
    ∧ (rx.state = .frame → 1 ≤ rx.wait ∧ rx.wait ≤ factor m ∧ rx.bits.length ≤ nbits m + parityBits m)

/-- All that the receiver's part of the invariant reads is the same. -/
abbrev SameReceiver (s t : State) : Prop :=
  t.mode = s.mode ∧ t.rx = s.rx ∧ t.hunt = s.hunt ∧ t.huntHist = s.huntHist ∧ t.syndet = s.syndet

theorem receiverOk_of_same {s t : State} (h : s.ReceiverOk) : SameReceiver s t → t.ReceiverOk
  | ⟨hmode, hrx, hhunt, hhist, hsyndet⟩ => by
    simpa only [State.ReceiverOk, State.RxAsyncOk, State.RxSyncOk, State.HuntOk, syncPattern_length, hmode, hrx, hhunt,
      hhist, hsyndet] using h

theorem nbits_pos (m : Byte) : 0 < nbits m := lt_of_lt_of_le (by decide) (nbits_bounds m).1

/-- A receiver that has collected nothing and holds no history. -/
theorem receiverOk_of_idle {s : State} (hrx : s.rx = .idle) (hhist : s.huntHist = [])
    (hasync : syncMode s.mode = false → s.hunt = false ∧ s.syndet = false)
    (hhunt : s.hunt = true → s.syndet = false) : s.ReceiverOk := by
  refine ⟨fun hmode => ⟨(hasync hmode).1, (hasync hmode).2, ?_⟩, fun _ => ?_, by simp [hhist], fun _ => hhist⟩
  · simp [hrx, RxAssembly.idle]
  · simpa [hrx, RxAssembly.idle, nbits_pos] using hhunt

/-- A receiver in sync mode that has collected nothing, at the start of a hunt or at a character boundary. -/
theorem receiverOk_of_noBits {s t : State} (h : s.ReceiverOk) (hsync : syncMode s.mode = true) (hmode : t.mode = s.mode)
    (hrx : t.rx = { s.rx with bits := [] }) (hhist : t.huntHist = []) (hhunt : t.hunt = true → t.syndet = false) :
    t.ReceiverOk := by
  obtain ⟨-, hrxSync, -⟩ := h
  obtain ⟨hstate, hwait, -⟩ := hrxSync hsync
  refine ⟨fun hasync => ?_, fun _ => ?_, by simp [hhist], fun _ => hhist⟩
  · simp [hmode, hsync] at hasync
  · simpa [hrx, hstate, hwait, nbits_pos] using hhunt

theorem declareSync_receiverOk {s : State} (h : s.ReceiverOk) (hsync : syncMode s.mode = true) :
    (declareSync s).ReceiverOk :=
  receiverOk_of_noBits h hsync rfl rfl rfl (by simp)

/-- In async mode nothing hunts, and sync is not detected. -/
theorem hunt_of_async {s : State} (h : s.ReceiverOk) (hasync : syncMode s.mode = false) :
    s.hunt = false ∧ s.syndet = false := by
  obtain ⟨hrxAsync, -⟩ := h
  obtain ⟨hhunt, hsyndet, -⟩ := hrxAsync hasync
  exact ⟨hhunt, hsyndet⟩

/-- While hunting, sync is not detected. -/
theorem syndet_of_hunt {s : State} (h : s.ReceiverOk) (hhunt : s.hunt = true) : s.syndet = false := by
  cases hmode : syncMode s.mode with
  | false => exact (hunt_of_async h hmode).2
  | true =>
    obtain ⟨-, hrxSync, -⟩ := h
    obtain ⟨-, -, -, hhunting⟩ := hrxSync hmode
    exact (hhunting hhunt).2

/-! #### A command byte -/

theorem applyRxDisable_receiverOk (b : Byte) {s : State} (h : s.ReceiverOk) : (applyRxDisable b s).ReceiverOk := by
  unfold applyRxDisable
  split
  · exact h
  · exact receiverOk_of_idle rfl rfl (hunt_of_async (s := s) h) (syndet_of_hunt (s := s) h)

theorem applyErrorReset_receiverOk (b : Byte) {s : State} (h : s.ReceiverOk) : (applyErrorReset b s).ReceiverOk := by
  unfold applyErrorReset
  split <;> exact h

theorem applyEnterHunt_receiverOk (b : Byte) {s : State} (h : s.ReceiverOk) : (applyEnterHunt b s).ReceiverOk := by
  unfold applyEnterHunt
  split
  case isTrue hhunt => exact receiverOk_of_noBits h hhunt.2 rfl rfl rfl (fun _ => rfl)
  case isFalse => exact h

theorem applyCommand_receiverOk (b : Byte) {s : State} (h : s.ReceiverOk) : (applyCommand b s).ReceiverOk :=
  applyEnterHunt_receiverOk b (applyErrorReset_receiverOk b (applyRxDisable_receiverOk b (s := { s with cmd := b }) h))

/-! #### A synchronous sample -/

theorem rxHuntSample_receiverOk {v : Bit} {s : State} (h : s.ReceiverOk) (hsync : syncMode s.mode = true)
    (hhunt : s.hunt = true) : (rxHuntSample v s).ReceiverOk := by
  unfold rxHuntSample
  split
  · exact h
  · split
    · exact declareSync_receiverOk h hsync
    · obtain ⟨hrxAsync, hrxSync, -⟩ := h
      exact ⟨hrxAsync, hrxSync, lastBits_length_le _ _, fun hno => absurd (hhunt.symm.trans hno) (by simp)⟩

theorem rxSyncSample_receiverOk {v : Bit} {s : State} (h : s.ReceiverOk) (hsync : syncMode s.mode = true) :
    (rxSyncSample v s).ReceiverOk := by
  cases hhunt : s.hunt with
  | true =>
    rw [rxSyncSample_of_hunt hhunt]
    exact rxHuntSample_receiverOk h hsync hhunt
  | false =>
    have ⟨_, hrxSync, hhist⟩ := h
    obtain ⟨hstate, hwait, hlen, -⟩ := hrxSync hsync
    by_cases hlast : s.rx.bits.length + 1 = nbits s.mode + parityBits s.mode
    · rw [rxSyncSample_of_lastBit hhunt hlast]
      exact receiverOk_of_noBits h hsync rfl rfl (hhist.2 hhunt) (fun hno => absurd (hhunt.symm.trans hno) (by simp))
    · rw [rxSyncSample_of_partial hhunt hlast]
      refine ⟨fun hasync => absurd (hsync.symm.trans hasync) (by simp), fun _ => ⟨hstate, hwait, ?_, ?_⟩, hhist⟩
      · simp only [List.length_append, List.length_singleton]
        omega
      · exact fun hno => absurd (hhunt.symm.trans hno) (by simp)

/-! #### An asynchronous sample -/

theorem assemblyOk_idle (m : Byte) : AssemblyOk m .idle :=
  ⟨fun _ => ⟨rfl, rfl⟩, by simp [RxAssembly.idle], by simp [RxAssembly.idle]⟩

theorem assemblyOk_start {m : Byte} {rx : RxAssembly} (hstate : rx.state = .start)
    (h : 1 ≤ rx.wait ∧ rx.wait ≤ factor m / 2 ∧ rx.bits = []) : AssemblyOk m rx :=
  ⟨by simp [hstate], fun _ => h, by simp [hstate]⟩

theorem assemblyOk_frame {m : Byte} {rx : RxAssembly} (hstate : rx.state = .frame)
    (h : 1 ≤ rx.wait ∧ rx.wait ≤ factor m ∧ rx.bits.length ≤ nbits m + parityBits m) : AssemblyOk m rx :=
  ⟨by simp [hstate], by simp [hstate], fun _ => h⟩

theorem rxStartCentre_assemblyOk (v : Bit) (s : State) : AssemblyOk s.mode (rxStartCentre v s).rx := by
  cases v with
  | true => exact assemblyOk_idle s.mode
  | false => exact assemblyOk_frame rfl ⟨factor_pos s.mode, le_rfl, Nat.zero_le _⟩

theorem rxFrameBit_assemblyOk (v : Bit) {s : State} (hstate : s.rx.state = .frame)
    (hlen : s.rx.bits.length ≤ nbits s.mode + parityBits s.mode) : AssemblyOk s.mode (rxFrameBit v s).rx := by
  by_cases hlast : s.rx.bits.length = nbits s.mode + parityBits s.mode
  · rw [rxFrameBit_of_stopBit hlast]
    exact assemblyOk_idle s.mode
  · rw [rxFrameBit_of_partial hlast]
    refine assemblyOk_frame hstate ⟨factor_pos s.mode, le_rfl, ?_⟩
    simp only [List.length_append, List.length_singleton]
    omega

theorem rxAsyncSample_assemblyOk (v : Bit) {s : State} (h : AssemblyOk s.mode s.rx) :
    AssemblyOk s.mode (rxAsyncSample v s).rx := by
  obtain ⟨hidle, hstart, hframe⟩ := h
  cases hstate : s.rx.state with
  | idle =>
    simp only [rxAsyncSample, hstate]
    split
    · exact ⟨hidle, hstart, hframe⟩
    · split
      · exact rxStartCentre_assemblyOk v s
      case isFalse hhalf => exact assemblyOk_start rfl ⟨Nat.pos_of_ne_zero hhalf, le_rfl, (hidle hstate).2⟩
  | start =>
    obtain ⟨hpos, hmax, hbits⟩ := hstart hstate
    simp only [rxAsyncSample, hstate]
    split
    · exact rxStartCentre_assemblyOk v s
    case isFalse hleft =>
      exact assemblyOk_start rfl ⟨Nat.pos_of_ne_zero hleft, (Nat.sub_le _ _).trans hmax, hbits⟩
  | frame =>
    obtain ⟨hpos, hmax, hbits⟩ := hframe hstate
    simp only [rxAsyncSample, hstate]
    split
    · exact rxFrameBit_assemblyOk v hstate hbits
    case isFalse hleft =>
      exact assemblyOk_frame rfl ⟨Nat.pos_of_ne_zero hleft, (Nat.sub_le _ _).trans hmax, hbits⟩

/-- An asynchronous sample leaves hunt, its history and sync detect alone. -/
theorem rxAsyncSample_hunt (v : Bit) (s : State) :
    (rxAsyncSample v s).hunt = s.hunt ∧ (rxAsyncSample v s).huntHist = s.huntHist := by
  unfold rxAsyncSample rxStartCentre rxFrameBit
  repeat' split
  all_goals exact ⟨rfl, rfl⟩

theorem rxAsyncSample_receiverOk {v : Bit} {s : State} (h : s.ReceiverOk) (hasync : syncMode s.mode = false) :
    (rxAsyncSample v s).ReceiverOk := by
  obtain ⟨hrxAsync, -, hhist⟩ := h
  obtain ⟨hhunt, hsyndet, hrx⟩ := hrxAsync hasync
  obtain ⟨hhunt', hhist'⟩ := rxAsyncSample_hunt v s
  have hmode : (rxAsyncSample v s).mode = s.mode := (congrArg State.mode (rxAsyncSample_frame v s) :)
  refine ⟨fun _ => ⟨hhunt'.trans hhunt, (rxAsyncSample_syndet v s).trans hsyndet, ?_⟩, fun hsync => ?_, ?_⟩
  · rw [hmode]
    exact rxAsyncSample_assemblyOk v hrx
  · simp [hmode, hasync] at hsync
  · simp [State.HuntOk, hhist', hhist.2 hhunt]

theorem rxSample_receiverOk {v : Bit} {s : State} (h : s.ReceiverOk) : (rxSample v s).ReceiverOk := by
  cases hmode : syncMode s.mode with
  | true =>
    rw [rxSample_of_sync v hmode]
    exact rxSyncSample_receiverOk h hmode
  | false =>
    rw [rxSample_of_async v hmode]
    exact rxAsyncSample_receiverOk h hmode

/-! #### A stimulus -/

theorem syncMode_of_esd {m : Byte} (h : esd m = true) : syncMode m = true := (Bool.and_eq_true_iff.1 h).1

theorem coreReset_receiverOk (s : State) : (coreReset s).ReceiverOk :=
  receiverOk_of_idle rfl rfl (fun _ => ⟨rfl, rfl⟩) (fun _ => rfl)

theorem effect_receiverOk (i : Instr) {s : State} (h : s.ReceiverOk) : (effect i s).ReceiverOk := by
  cases i with
  | modeW b => exact receiverOk_of_idle rfl rfl (fun hmode => ⟨hmode, rfl⟩) (fun _ => rfl)
  | cmdIr | reset => exact coreReset_receiverOk s
  | cmdW b => exact applyCommand_receiverOk b h
  | sync1W | sync2W => exact receiverOk_of_same h ⟨rfl, rfl, rfl, rfl, rfl⟩
  | maskW | statusR | maskR | txrdyR | pinRxd | pinCts | pinDsr => exact h
  | dataW | dataR =>
    rw [effect]
    split <;> exact h
  | pinTxc v =>
    rw [effect_pinTxc]
    exact h
  | pinRxc v =>
    rw [effect]
    split
    · exact rxSample_receiverOk (s := { s with pins := { s.pins with rxc := v } }) h
    · exact h
  | pinSyn v =>
    rw [effect]
    split
    case isTrue hdeclare =>
      obtain ⟨-, -, hesd, -⟩ := hdeclare
      exact declareSync_receiverOk (s := { s with pins := { s.pins with syn := v } }) h (syncMode_of_esd hesd)
    case isFalse => exact h

/-! ### The invariant -/

/-- Every stimulus that decoding admits keeps the invariant. -/
theorem exec_inv {i : Instr} {s t : State} (h : s.Inv) (hwf : i.wf = true) (hadmitted : i.admittedIn s.seq = true)
    (hexec : exec i s = .next t) : t.Inv := by
  obtain ⟨hreset, hseq, htx, hrxAsync, hrxSync, hhunt, hsettled⟩ := h
  obtain ⟨hrxAsyncE, hrxSyncE, hhuntE⟩ := effect_receiverOk i ⟨hrxAsync, hrxSync, hhunt⟩
  have heffect : State.Inv { effect i s with out := levels (effect i s) } :=
    ⟨effect_wasReset i hreset, effect_seqOk hseq hwf hadmitted, effect_txOk htx, hrxAsyncE, hrxSyncE, hhuntE, rfl⟩
  rw [← exec_effect hreset hexec] at heffect
  obtain ⟨hreset', hseq', htx', hrxAsync', hrxSync', hhunt', -⟩ := heffect
  exact ⟨hreset', hseq', htx', hrxAsync', hrxSync', hhunt', exec_settled hreset hsettled hexec⟩

/-- Settles O59: an idle step changes no field that the invariant reads, and a decoded stimulus is well formed and admitted. -/
theorem stepKeepsInvariant : Obligations.StepKeepsInvariant := by
  intro s t h hstep
  rcases step_next hstep with ⟨-, rfl⟩ | ⟨w, rest, i, -, hd, hexec⟩
  · exact h
  · obtain ⟨-, hwf, hadmitted⟩ := encodeOfDecode s.seq w i hd
    exact exec_inv (s := { s with pending := rest }) h hwf hadmitted hexec

/-- Settles O60: RESET ends in ExpectMode with the command byte 0, both directions idle and the outputs at their levels. -/
theorem deviceResetEstablishesInvariant : Obligations.DeviceResetEstablishesInvariant := by
  intro s t h
  obtain rfl := Host.Outcome.next.inj h
  obtain ⟨hrxAsync, hrxSync, hhunt⟩ := coreReset_receiverOk s
  exact ⟨rfl, ⟨fun _ => rfl, by simp, by simp, BitVec.getLsbD_zero⟩, txOk_of_idle rfl (factor_pos _), hrxAsync, hrxSync,
    hhunt, rfl⟩

/-! ### State.reset -/

/-- RESET in the variant, from any state: the table of 10_state R41. -/
theorem exec_reset_of_hasMask {s : State} (h : s.params.hasMask = true) :
    exec .reset s = .next (State.afterReset s.params s.pins s.pending) := by
  have hlevels : levels { coreReset s with mask := s.params.maskReset, wasReset := true } = .afterReset :=
    levels_coreReset s
  have hemissions : emissions OutPin.all { coreReset s with mask := s.params.maskReset, wasReset := true }
      = resetEmissions := emissions_coreReset s
  simp only [exec, execReset, h, if_true, updateOutputs, hlevels, hemissions]
  rfl

/-- Settles O13: the chosen machine is a variant, and the latches stand at `P_INIT_*`. -/
theorem resetStateFromPowerOn : Obligations.ResetStateFromPowerOn := by
  intro s ⟨_, hpins⟩ hparams hpending
  rw [exec_reset_of_hasMask (by rw [hparams]; rfl), hpins, hparams, hpending]
  rfl

/-- Settles O58: State.reset is what RESET makes of a power-on state. -/
theorem resetMeetsInvariant : Obligations.ResetMeetsInvariant :=
  deviceResetEstablishesInvariant _ _
    (resetStateFromPowerOn { State.reset with wasReset := false } ⟨rfl, rfl⟩ rfl rfl)

end Sys2Proof.Machine
end

section
/-! PROOF. The receiver over a run of samples: hunting for the sync pattern (43_receiver sections 4 and 5), and the round trip of a
transmitted character (44_codec). -/

namespace Sys2Proof.Machine

/-! ### Runs of samples -/

theorem feed_append (l m : List Bit) (s : State) : feed (l ++ m) s = feed m (feed l s) := by
  induction l generalizing s with
  | nil => rfl
  | cons v l ih => exact ih (rxSample v s)

/-- A run of samples over one more bit of a list. -/
theorem feed_take_succ {l : List Bit} {k : Nat} (hk : k < l.length) (s : State) :
    feed (l.take (k + 1)) s = rxSample l[k] (feed (l.take k) s) := by
  rw [← List.take_concat_get' l k hk, feed_append]
  rfl

/-! ### Hunting (R157) -/

theorem lastBits_of_length_le {k : Nat} {l : List Bit} (h : l.length ≤ k) : lastBits k l = l := by
  rw [lastBits, Nat.sub_eq_zero_of_le h, List.drop_zero]

/-- The receiver in a hunt that has seen `seen`. -/
def State.withHistory (s : State) (seen : List Bit) : State := { s with huntHist := seen }

theorem withHistory_nil {s : State} (h : s.huntHist = []) : s.withHistory [] = s := by
  rw [State.withHistory, ← h]

/-- A hunt that has seen the pattern's first `k` bits looks at these and one more. -/
theorem huntWindow_take {s : State} {k : Nat} (hk : k < (syncPattern s).length) :
    huntWindow (syncPattern s)[k] (s.withHistory ((syncPattern s).take k)) = (syncPattern s).take (k + 1) :=
  (congrArg (lastBits (syncPattern s).length) (List.take_concat_get' (syncPattern s) k hk)).trans
    (lastBits_of_length_le (List.length_take_le' _ _))

section
variable {s : State} (hsync : syncMode s.mode = true) (hesd : esd s.mode = false) (hhunt : s.hunt = true)
include hsync hesd hhunt

omit hesd in
theorem rxSample_withHistory (v : Bit) (seen : List Bit) :
    rxSample v (s.withHistory seen) = rxHuntSample v (s.withHistory seen) :=
  (rxSample_of_sync (s := s.withHistory seen) v hsync).trans (rxSyncSample_of_hunt (s := s.withHistory seen) hhunt)

/-- The pattern's next bit, not its last, is added to the history. -/
theorem rxSample_hunt_partial {k : Nat} (hk : k + 1 < (syncPattern s).length) :
    rxSample (syncPattern s)[k] (s.withHistory ((syncPattern s).take k))
      = s.withHistory ((syncPattern s).take (k + 1)) := by
  have hwindow := huntWindow_take (s := s) (Nat.lt_of_succ_lt hk)
  have hshort : (syncPattern s).take (k + 1) ≠ syncPattern s := fun h => by
    have hlen := congrArg List.length h
    rw [List.length_take] at hlen
    omega
  rw [rxSample_withHistory hsync hhunt,
    rxHuntSample_of_no_match (s := s.withHistory ((syncPattern s).take k)) hesd (hwindow ▸ hshort), hwindow]
  rfl

/-- The pattern's last bit completes it. -/
theorem rxSample_hunt_last {k : Nat} (hk : k + 1 = (syncPattern s).length) :
    rxSample (syncPattern s)[k] (s.withHistory ((syncPattern s).take k)) = declareSync s := by
  have hwindow := huntWindow_take (s := s) (k := k) (by omega)
  rw [hk, List.take_length] at hwindow
  rw [rxSample_withHistory hsync hhunt,
    rxHuntSample_of_match (s := s.withHistory ((syncPattern s).take k)) hesd hwindow]
  rfl

/-- From an empty history, the first bits of the pattern, short of all, only fill the history. -/
theorem feed_hunt_take (hhist : s.huntHist = []) {k : Nat} (hk : k < (syncPattern s).length) :
    feed ((syncPattern s).take k) s = s.withHistory ((syncPattern s).take k) := by
  induction k with
  | zero => exact (withHistory_nil hhist).symm
  | succ k ih =>
    rw [feed_take_succ (Nat.lt_of_succ_lt hk), ih (Nat.lt_of_succ_lt hk)]
    exact rxSample_hunt_partial hsync hesd hhunt hk

end

/-- In sync mode the pattern has bits. -/
theorem syncPattern_length_pos {s : State} (hsync : syncMode s.mode = true) : 0 < (syncPattern s).length := by
  have hsome : 0 < nsync s.mode := by
    rw [nsync, if_pos hsync]
    split <;> decide
  rw [syncPattern_length]
  exact Nat.mul_pos hsome (Nat.add_pos_left (nbits_pos s.mode) _)

/-- Settles O39: the bits before the last fill the history, and the last makes it the pattern. -/
theorem huntFindsPattern : Obligations.HuntFindsPattern := by
  intro s hsync hesd hhunt hhist
  refine ⟨fun k hk => ?_, ?_⟩
  · rw [feed_hunt_take hsync hesd hhunt hhist hk]
    exact ⟨hhunt, rfl⟩
  · obtain ⟨k, hk⟩ : ∃ k, (syncPattern s).length = k + 1 :=
      Nat.exists_eq_succ_of_ne_zero (syncPattern_length_pos hsync).ne'
    have hlt : k < (syncPattern s).length := by omega
    calc feed (syncPattern s) s
      _ = feed ((syncPattern s).take (k + 1)) s := by rw [← hk, List.take_length]
      _ = rxSample (syncPattern s)[k] (s.withHistory ((syncPattern s).take k)) := by
        rw [feed_take_succ hlt, feed_hunt_take hsync hesd hhunt hhist hlt]
      _ = declareSync s := rxSample_hunt_last hsync hesd hhunt hk.symm
      _ = _ := by rw [declareSync, ← hhist]

/-! ### What the codec reads back from a character's bits (44_codec, the round-trip property) -/

theorem valueOf_concat (l : List Bit) (b : Bit) : valueOf (l ++ [b]) = valueOf l + 2 ^ l.length * b.toNat := by
  induction l with
  | nil => simp
  | cons a l ih =>
    rw [List.cons_append, valueOf_cons, valueOf_cons, ih, List.length_cons, pow_succ]
    ring

theorem bitsOf_succ (c : Byte) (n : Nat) : bitsOf c (n + 1) = bitsOf c n ++ [c.getLsbD n] := by
  simp [bitsOf, List.range_succ]

/-- The low `n` bits of a character, read as a number. -/
theorem valueOf_bitsOf (c : Byte) (n : Nat) : valueOf (bitsOf c n) = c.toNat % 2 ^ n := by
  induction n with
  | zero => simp [bitsOf, Nat.mod_one]
  | succ n ih => rw [bitsOf_succ, valueOf_concat, ih, bitsOf_length, BitVec.getLsbD, Nat.toNat_testBit, Nat.mod_pow_succ]

theorem charBits_take (c m : Byte) (l : List Bit) : (charBits c m ++ l).take (nbits m) = bitsOf c (nbits m) := by
  rw [charBits, List.append_assoc, List.take_left' (bitsOf_length c (nbits m))]

/-- The receiver reads back the character's low bits, whatever follows them on the line. -/
theorem rxData_charBits (c m : Byte) (l : List Bit) :
    (rxData m (charBits c m ++ l)).toNat = c.toNat % 2 ^ nbits m := by
  rw [rxData_toNat, charBits_take, valueOf_bitsOf]

/-- The parity bit of the character that was sent is that of the character read back. -/
theorem rxParOk_charBits (c m : Byte) (l : List Bit) : rxParOk m (charBits c m ++ l) = true := by
  cases hpen : pen m with
  | false => exact rxParOk_of_no_pen _ hpen
  | true =>
    have hlow (k : Nat) (hk : k < nbits m) : (rxData m (charBits c m ++ l)).getLsbD k = c.getLsbD k := by
      rw [BitVec.getLsbD, rxData_charBits, Nat.testBit_mod_two_pow, BitVec.getLsbD]
      simp [hk]
    have hbit : (charBits c m ++ l)[nbits m]? = some (parityBit c (nbits m) (even m)) := by
      rw [List.getElem?_append_left (by simp [parityBits, hpen]), charBits_parity c hpen]
    simp [rxParOk, hbit, parityBit, popcountLow_congr hlow]

/-! ### A character in sync mode (R157, R159) -/

/-- The receiver with another assembly state. -/
def State.withRx (s : State) (rx : RxAssembly) : State := { s with rx := rx }

theorem withRx_no_bits {s : State} (h : s.rx.bits = []) : s.withRx { s.rx with bits := [] } = s := by
  rw [State.withRx, ← h]

theorem rxSample_withRx_of_sync {s : State} (hsync : syncMode s.mode = true) (v : Bit) (rx : RxAssembly) :
    rxSample v (s.withRx rx) = rxSyncSample v (s.withRx rx) :=
  rxSample_of_sync (s := s.withRx rx) v hsync

section
variable {s : State} (hsync : syncMode s.mode = true) (hhunt : s.hunt = false) (hbits : s.rx.bits = [])
  {l : List Bit} (hl : l.length = nbits s.mode + parityBits s.mode)
include hsync hhunt hbits hl

/-- Outside hunt the bits of a character are collected one by one, up to the last. -/
theorem feed_sync_take {k : Nat} (hk : k < l.length) :
    feed (l.take k) s = s.withRx { s.rx with bits := l.take k } := by
  induction k with
  | zero => exact (withRx_no_bits hbits).symm
  | succ k ih =>
    have hk' : k < l.length := Nat.lt_of_succ_lt hk
    have hpartial : (l.take k).length + 1 ≠ nbits s.mode + parityBits s.mode := by
      rw [List.length_take]
      omega
    rw [feed_take_succ hk', ih hk', rxSample_withRx_of_sync hsync,
      rxSyncSample_of_partial (s := s.withRx { s.rx with bits := l.take k }) hhunt hpartial,
      ← List.take_concat_get' l k hk']
    rfl

/-- The last bit completes the character. -/
theorem feed_sync_character : feed l s = rxSyncComplete l s := by
  obtain ⟨k, hk⟩ : ∃ k, l.length = k + 1 :=
    Nat.exists_eq_succ_of_ne_zero (hl ▸ (Nat.add_pos_left (nbits_pos s.mode) _).ne')
  have hlt : k < l.length := by omega
  have hlen : (l.take k).length + 1 = nbits s.mode + parityBits s.mode := by
    rw [List.length_take]
    omega
  have hall : l.take k ++ [l[k]] = l := by rw [List.take_concat_get', ← hk, List.take_length]
  calc feed l s
    _ = feed (l.take (k + 1)) s := by rw [← hk, List.take_length]
    _ = rxSample l[k] (s.withRx { s.rx with bits := l.take k }) := by
      rw [feed_take_succ hlt, feed_sync_take hsync hhunt hbits hl hlt]
    _ = rxSyncComplete (l.take k ++ [l[k]]) (s.withRx { s.rx with bits := l.take k }) := by
      rw [rxSample_withRx_of_sync hsync,
        rxSyncSample_of_lastBit (s := s.withRx { s.rx with bits := l.take k }) hhunt hlen]
      rfl
    _ = rxSyncComplete l s := by rw [hall]; rfl

end

/-- A character whose parity and framing are right is stored in an empty register, with no flag newly set (R156). -/
theorem rxComplete_of_ok {data : Byte} {s : State} (hfree : s.rxrdy = false) :
    rxComplete data true false s = { s with rdr := data, rxrdy := true } := by
  simp [rxComplete, hfree]

/-- Settles O46: the frame is the character's bits, which are collected and read back. -/
theorem syncRoundTrip : Obligations.SyncRoundTrip := by
  intro c s hsync hhunt hbits hfree
  have hdata := rxData_charBits c s.mode []
  have hparity := rxParOk_charBits c s.mode []
  rw [List.append_nil] at hdata hparity
  refine ⟨_, hdata, ?_⟩
  rw [txFrameOf_of_sync c hsync, feed_sync_character hsync hhunt hbits (charBits_length c s.mode), rxSyncComplete,
    hparity, rxComplete_of_ok hfree, ← hbits]

/-! ### A character in async mode (R152 to R155) -/

theorem atRate_append (f : Nat) (l m : List Bit) : atRate f (l ++ m) = atRate f l ++ atRate f m := by
  induction l with
  | nil => rfl
  | cons b l ih => rw [List.cons_append, atRate, atRate, ih, List.append_assoc]

/-- A bit time is half a bit up to the centre, the centre sample, and the rest. -/
theorem replicate_factor (m : Byte) (b : Bit) :
    List.replicate (factor m) b
      = List.replicate (factor m / 2) b ++ b :: List.replicate (factor m - (factor m / 2 + 1)) b := by
  have hsplit : factor m = factor m / 2 + (factor m - (factor m / 2 + 1) + 1) := by
    have := factor_pos m
    omega
  rw [← List.replicate_succ, List.replicate_append_replicate, ← hsplit]

theorem rxSample_withRx_of_async {s : State} (hasync : syncMode s.mode = false) (v : Bit) (rx : RxAssembly) :
    rxSample v (s.withRx rx) = rxAsyncSample v (s.withRx rx) :=
  rxSample_of_async (s := s.withRx rx) v hasync

/-- Samples before the next centre are only counted. -/
theorem feed_waiting {s : State} (hasync : syncMode s.mode = false) {state : RxState} (hstate : state ≠ .idle)
    {w : Nat} (hw : 1 ≤ w) (bits : List Bit) (v : Bit) (j : Nat) :
    feed (List.replicate j v) (s.withRx { state := state, wait := j + w, bits := bits })
      = s.withRx { state := state, wait := w, bits := bits } := by
  induction j with
  | zero => rw [Nat.zero_add]; rfl
  | succ j ih =>
    have hsample : rxSample v (s.withRx { state := state, wait := j + 1 + w, bits := bits })
        = s.withRx { state := state, wait := j + w, bits := bits } := by
      have hleft : j + w = j + 1 + w - 1 := by omega
      rw [rxSample_withRx_of_async hasync, hleft]
      exact rxAsyncSample_of_waiting (s := s.withRx { state := state, wait := j + 1 + w, bits := bits }) hstate
        (show 2 ≤ j + 1 + w by omega)
    rw [List.replicate_succ, feed, hsample, ih]

/-- An idle receiver stays as it is while the line is at mark. -/
theorem feed_mark {s : State} (hasync : syncMode s.mode = false) (hidle : s.rx.state = .idle) (j : Nat) :
    feed (List.replicate j true) s = s := by
  obtain ⟨hmark, -⟩ := asyncStartDetection true s
  induction j with
  | zero => rfl
  | succ j ih => rw [List.replicate_succ, feed, rxSample_of_async _ hasync, hmark hidle rfl, ih]

theorem feed_atRate_mark {s : State} (hasync : syncMode s.mode = false) (hidle : s.rx.state = .idle) (f j : Nat) :
    feed (atRate f (List.replicate j true)) s = s := by
  induction j with
  | zero => rfl
  | succ j ih => rw [List.replicate_succ, atRate, feed_append, feed_mark hasync hidle, ih]

/-- The receiver at the end of a bit time, half a bit and one sample before the next centre, with `bits` collected. -/
def State.atBitEnd (s : State) (bits : List Bit) : State :=
  s.withRx { state := .frame, wait := factor s.mode / 2 + 1, bits := bits }

/-- After a centre sample the rest of the bit time is counted. -/
theorem feed_after_centre {s : State} (hasync : syncMode s.mode = false) (v : Bit) (bits : List Bit) :
    feed (List.replicate (factor s.mode - (factor s.mode / 2 + 1)) v)
        (s.withRx { state := .frame, wait := factor s.mode, bits := bits })
      = s.atBitEnd bits := by
  have hfactor : factor s.mode - (factor s.mode / 2 + 1) + (factor s.mode / 2 + 1) = factor s.mode := by
    have := factor_pos s.mode
    omega
  have hwait := feed_waiting hasync (show RxState.frame ≠ .idle by decide) (Nat.le_add_left 1 (factor s.mode / 2)) bits v
    (factor s.mode - (factor s.mode / 2 + 1))
  rwa [hfactor] at hwait

/-- A bit time that begins at a bit end comes to its centre with a wait of 1. -/
theorem feed_bit_to_centre {s : State} (hasync : syncMode s.mode = false) (v : Bit) (bits : List Bit) :
    feed (List.replicate (factor s.mode) v) (s.atBitEnd bits)
      = feed (List.replicate (factor s.mode - (factor s.mode / 2 + 1)) v)
          (rxFrameBit v (s.withRx { state := .frame, wait := 1, bits := bits })) := by
  have hwait := feed_waiting hasync (show RxState.frame ≠ .idle by decide) le_rfl bits v (factor s.mode / 2)
  rw [replicate_factor, feed_append, State.atBitEnd, hwait, feed, rxSample_withRx_of_async hasync,
    rxAsyncSample_of_bitCentre (s := s.withRx { state := .frame, wait := 1, bits := bits }) rfl rfl]

/-- The start bit is seen at its centre. -/
theorem feed_startBit {s : State} (hasync : syncMode s.mode = false)
    (hrx : s.rx = { state := .idle, wait := 0, bits := [] }) :
    feed (List.replicate (factor s.mode) false) s = s.atBitEnd [] := by
  have hidle : s.rx.state = .idle := by rw [hrx]
  obtain ⟨-, hcentreX1, hstart, -⟩ := asyncStartDetection false s
  by_cases hfactor : factor s.mode = 1
  · rw [State.atBitEnd, hfactor, List.replicate_one, feed, rxSample_of_async _ hasync, hcentreX1 hidle rfl hfactor]
    rfl
  · obtain ⟨h, hhalf⟩ : ∃ h, factor s.mode / 2 = h + 1 :=
      Nat.exists_eq_succ_of_ne_zero (mt (factor_half_eq_zero_iff s.mode).1 hfactor)
    have hdetected : rxSample false s = s.withRx { state := .start, wait := h + 1, bits := [] } := by
      rw [rxSample_of_async _ hasync, hstart hidle rfl hfactor, hhalf, hrx]
      rfl
    have hwait := feed_waiting hasync (show RxState.start ≠ .idle by decide) le_rfl [] false h
    have hcentre : rxSample false (s.withRx { state := .start, wait := 1, bits := [] })
        = s.withRx { state := .frame, wait := factor s.mode, bits := [] } := by
      rw [rxSample_withRx_of_async hasync]
      exact rxAsyncSample_of_startCentre (s := s.withRx { state := .start, wait := 1, bits := [] }) rfl rfl
    have hbefore : feed (List.replicate (factor s.mode / 2) false) s
        = s.withRx { state := .start, wait := 1, bits := [] } := by
      rw [hhalf, List.replicate_succ, feed, hdetected, hwait]
    rw [replicate_factor, feed_append, hbefore, feed, hcentre, feed_after_centre hasync]

/-- Each data or parity bit is collected at its centre. -/
theorem feed_frameBits {s : State} (hasync : syncMode s.mode = false) {l bits : List Bit}
    (hlen : bits.length + l.length ≤ nbits s.mode + parityBits s.mode) :
    feed (atRate (factor s.mode) l) (s.atBitEnd bits) = s.atBitEnd (bits ++ l) := by
  induction l generalizing bits with
  | nil => rw [List.append_nil]; rfl
  | cons v l ih =>
    rw [List.length_cons] at hlen
    have hpartial : bits.length ≠ nbits s.mode + parityBits s.mode := by omega
    have hrest : (bits ++ [v]).length + l.length ≤ nbits s.mode + parityBits s.mode := by
      rw [List.length_append, List.length_singleton]
      omega
    have hbit : feed (List.replicate (factor s.mode) v) (s.atBitEnd bits) = s.atBitEnd (bits ++ [v]) := by
      rw [feed_bit_to_centre hasync,
        rxFrameBit_of_partial (s := s.withRx { state := .frame, wait := 1, bits := bits }) hpartial]
      exact feed_after_centre hasync v (bits ++ [v])
    rw [atRate, feed_append, hbit, ih hrest, List.append_assoc]
    rfl

/-- The first stop bit completes the character at its centre, and the receiver is idle for the rest of it. -/
theorem feed_stopBit {s : State} (hasync : syncMode s.mode = false) {bits : List Bit}
    (hlen : bits.length = nbits s.mode + parityBits s.mode) :
    feed (List.replicate (factor s.mode) true) (s.atBitEnd bits) = rxAsyncComplete (bits ++ [true]) s := by
  rw [feed_bit_to_centre hasync,
    rxFrameBit_of_stopBit (s := s.withRx { state := .frame, wait := 1, bits := bits }) hlen]
  exact feed_mark (s := rxAsyncComplete (bits ++ [true]) s) hasync rfl _

/-- Settles O45: the start bit, the character's bits, the first stop bit, and mark. -/
theorem asyncRoundTrip : Obligations.AsyncRoundTrip := by
  intro c s hasync hrx hfree
  refine ⟨_, rxData_charBits c s.mode [true], ?_⟩
  obtain ⟨j, hstops⟩ : ∃ j, stops s.mode = j + 1 :=
    Nat.exists_eq_succ_of_ne_zero (by rcases stops_cases s.mode with h | h <;> omega)
  have hframing : rxFrameOk s.mode (charBits c s.mode ++ [true]) = true := by
    rw [rxFrameOk, ← charBits_length c s.mode]
    simp
  have hcomplete : rxAsyncComplete (charBits c s.mode ++ [true]) s
      = { s with rdr := rxData s.mode (charBits c s.mode ++ [true]), rxrdy := true } := by
    rw [rxAsyncComplete, rxParOk_charBits, hframing, Bool.not_true, rxComplete_of_ok hfree, RxAssembly.idle, ← hrx]
  calc feed (atRate (factor s.mode) (txFrameOf c s.mode)) s
    _ = feed (atRate (factor s.mode) (charBits c s.mode ++ List.replicate (stops s.mode) true)) (s.atBitEnd []) := by
      rw [txFrameOf_of_async c hasync, atRate, feed_append, feed_startBit hasync hrx]
    _ = feed (atRate (factor s.mode) (List.replicate (stops s.mode) true)) (s.atBitEnd (charBits c s.mode)) := by
      rw [atRate_append, feed_append, feed_frameBits hasync (by simp), List.nil_append]
    _ = feed (atRate (factor s.mode) (List.replicate j true)) (rxAsyncComplete (charBits c s.mode ++ [true]) s) := by
      rw [hstops, List.replicate_succ, atRate, feed_append, feed_stopBit hasync (charBits_length c s.mode)]
    _ = rxAsyncComplete (charBits c s.mode ++ [true]) s :=
      feed_atRate_mark (s := rxAsyncComplete (charBits c s.mode ++ [true]) s) hasync rfl _ _
    _ = _ := hcomplete

end Sys2Proof.Machine
end
